-- ==== Sys2Proof/Word.lean ====
section
/-! DEFINITION. The words of QRC: the 32-bit bus word and the 8-bit buffer byte (00_scope.md R8, R9). -/

namespace Sys2Proof

/-- A word of the host data bus, and a command word (00_scope.md R8, 30_encoding.md R90). -/
abbrev Word := BitVec 32

/-- A byte of an internal buffer, and an element of GF(256) (10_state.md R51, 40_gf.md R120). -/
abbrev Byte := BitVec 8

end Sys2Proof
end

