-- ==== Sys2Proof/Syntax.lean ====
section
/-! DEFINITION. The syntax of the QRC command set, revision 1: one constructor per row of 30_encoding.md R100. -/

namespace Sys2Proof

/-- A QRC command. An operand that is an element of GF(256), or the 8-bit index of the antilog table, is a byte; an
operand that is an unsigned integer (an exponent, a degree, a length, a version, a level code) is a number, and
WellFormed.lean says which numbers its field can hold (30_encoding.md R92 to R99). -/
inductive Instr where
  /-- NOP, format N (45_control.md R260). -/
  | nop
  /-- GF.MUL A, B, format GB (40_gf.md R125). -/
  | gfMul (a b : Byte)
  /-- GF.POW A, E, format GE (40_gf.md R126). -/
  | gfPow (a : Byte) (e : Nat)
  /-- GF.EXP I, format GI (40_gf.md R127). -/
  | gfExp (i : Byte)
  /-- GF.LOG A, format GI (40_gf.md R128). -/
  | gfLog (a : Byte)
  /-- RS.GEN N, format RG (41_rs.md R145). -/
  | rsGen (n : Nat)
  /-- RS.DIV N, LEN, format RD (41_rs.md R146). -/
  | rsDiv (n len : Nat)
  /-- QR.BEGIN VER, ECL, format QB (42_assemble.md R160). -/
  | qrBegin (ver ecl : Nat)
  /-- QR.ASM, format N (42_assemble.md R163). -/
  | qrAsm
  /-- QR.BUILD, format N (43_matrix.md R190). -/
  | qrBuild
  /-- QR.EVAL, format N (44_mask.md R230). -/
  | qrEval
  /-- QR.FINAL, format N (44_mask.md R238). -/
  | qrFinal
  deriving DecidableEq, Repr

end Sys2Proof
end

