-- ==== Sys2Proof/WellFormed.lean ====
section
/-! DEFINITION. Well-formed commands: every operand fits its field (30_encoding.md R92 to R99, R105). -/

namespace Sys2Proof

/-- `i` can be encoded: each numeric operand fits the width of its field. A value outside its LEGAL range but inside its
field is well formed (30_encoding.md R103): it fails in execution, not in encoding. "An operand too wide for its field
is an assembly error; the assembler never truncates" (R105). -/
def Instr.wf : Instr → Bool
  | .nop => true
  | .gfMul _ _ => true
  | .gfPow _ e => decide (e < 65536)
  | .gfExp _ => true
  | .gfLog _ => true
  | .rsGen n => decide (n < 256)
  | .rsDiv n len => decide (n < 256) && decide (len < 512)
  | .qrBegin ver ecl => decide (ver < 64) && decide (ecl < 8)
  | .qrAsm => true
  | .qrBuild => true
  | .qrEval => true
  | .qrFinal => true

end Sys2Proof
end

