-- ==== Sys2Proof/Decode.lean ====
section
/-! DEFINITION. Decoding a command word and encoding a command (30_encoding.md R90 to R103, R105). -/

namespace Sys2Proof

/-- The field `w[hi:lo]` as an unsigned number (00_scope.md R9, 30_encoding.md R99: nothing is sign-extended, scaled or
biased). -/
def Word.field (hi lo : Nat) (w : Word) : Nat :=
  (w.extractLsb' lo (hi + 1 - lo)).toNat

/-- The field `w[lo+7:lo]` as a byte: a GF(256) operand (30_encoding.md R93, R94, R96). -/
def Word.byteAt (lo : Nat) (w : Word) : Byte :=
  w.extractLsb' lo 8

/-- A row of the opcode map of 30_encoding.md R100: its mnemonic, the words it takes (`match` and `mask`), and the
operands of its format. -/
structure OpRow where
  mnemonic : String
  bits : Word
  mask : Word
  operands : Word → Instr

/-- The complete opcode map of 30_encoding.md R100, with the field layout of R91 to R98. -/
def opcodeMap : List OpRow :=
  [ ⟨"NOP", 0x00000000, 0xFFFFFFFF, fun _ => .nop⟩,
    ⟨"GF.MUL", 0x00000001, 0xFF0000FF, fun w => .gfMul (w.byteAt 8) (w.byteAt 16)⟩,
    ⟨"GF.POW", 0x00000002, 0x000000FF, fun w => .gfPow (w.byteAt 8) (w.field 31 16)⟩,
    ⟨"GF.EXP", 0x00000003, 0xFFFF00FF, fun w => .gfExp (w.byteAt 8)⟩,
    ⟨"GF.LOG", 0x00000004, 0xFFFF00FF, fun w => .gfLog (w.byteAt 8)⟩,
    ⟨"RS.GEN", 0x00000010, 0xFFFF00FF, fun w => .rsGen (w.field 15 8)⟩,
    ⟨"RS.DIV", 0x00000011, 0xFE0000FF, fun w => .rsDiv (w.field 15 8) (w.field 24 16)⟩,
    ⟨"QR.BEGIN", 0x00000020, 0xFFF8C0FF, fun w => .qrBegin (w.field 13 8) (w.field 18 16)⟩,
    ⟨"QR.ASM", 0x00000021, 0xFFFFFFFF, fun _ => .qrAsm⟩,
    ⟨"QR.BUILD", 0x00000022, 0xFFFFFFFF, fun _ => .qrBuild⟩,
    ⟨"QR.EVAL", 0x00000023, 0xFFFFFFFF, fun _ => .qrEval⟩,
    ⟨"QR.FINAL", 0x00000024, 0xFFFFFFFF, fun _ => .qrFinal⟩ ]

/-- Why a word is illegal (30_encoding.md R102). Both reasons end a command with IllegalCommand. -/
inductive DecodeError where
  /-- No row of the opcode map has the word's OPCODE. -/
  | unassignedOpcode
  /-- The OPCODE is assigned, and a reserved-zero bit of its format is 1. -/
  | reservedBit
  deriving DecidableEq, Repr

/-- The row whose OPCODE is the word's bits 7:0 (30_encoding.md R91, R101). -/
def opRow? (w : Word) : Option OpRow :=
  opcodeMap.find? fun row => row.bits.byteAt 0 == w.byteAt 0

/-- The decoder of 30_encoding.md R101, total on every word. -/
def decode (w : Word) : Except DecodeError Instr :=
  match opRow? w with
  | none => .error .unassignedOpcode
  | some row => if w &&& row.mask = row.bits then .ok (row.operands w) else .error .reservedBit

/-- A number placed at bit `lo` of a word (30_encoding.md R91). -/
def fieldAt (lo value : Nat) : Word :=
  BitVec.ofNat 32 value <<< lo

/-- The word of a well-formed command (30_encoding.md R105, with the layouts of R92 to R98). -/
def encode : Instr → Word
  | .nop => 0x00#32
  | .gfMul a b => fieldAt 16 b.toNat ||| fieldAt 8 a.toNat ||| 0x01#32
  | .gfPow a e => fieldAt 16 e ||| fieldAt 8 a.toNat ||| 0x02#32
  | .gfExp i => fieldAt 8 i.toNat ||| 0x03#32
  | .gfLog a => fieldAt 8 a.toNat ||| 0x04#32
  | .rsGen n => fieldAt 8 n ||| 0x10#32
  | .rsDiv n len => fieldAt 16 len ||| fieldAt 8 n ||| 0x11#32
  | .qrBegin ver ecl => fieldAt 16 ecl ||| fieldAt 8 ver ||| 0x20#32
  | .qrAsm => 0x21#32
  | .qrBuild => 0x22#32
  | .qrEval => 0x23#32
  | .qrFinal => 0x24#32

/-- The command word whose table bits are `w`: bit 0 is the word's least significant bit, and bits from `nbits` on are 0
(30_encoding.md R90: every command is one 32-bit word). -/
def tableWord (nbits w : Nat) : Word :=
  BitVec.ofNat 32 (w % 2 ^ nbits)

/-- The instruction the decoder reads from a word numbered as spec/opcode_table.json numbers it. -/
def decodeTableWord (nbits w : Nat) : Option Instr :=
  (decode (tableWord nbits w)).toOption

end Sys2Proof
end

