-- ==== Sys2Proof/Config.lean ====
section
/-! DEFINITION. What the spec leaves open as a value: the free values of the model, opaque constants without a body. -/

namespace Sys2Proof

/-- The draws of 70_reset_and_hazards.md R321 and 10_state.md R63: the value of a buffer byte that nothing has written
since a reset. `epoch` numbers the resets, `sel` is the buffer's selector (10_state.md R51), `index` the byte's index.
One call always gives one value, which is the rule's "the same value on every read". Log entries 1 and 2. -/
opaque Config.unspecifiedByte (epoch sel index : Nat) : Byte

end Sys2Proof
end

