-- ==== Sys2Proof/Machine/State.lean ====
section
/-! DEFINITION. The state of QRC as plain data: everything 10_state.md gives the machine, the host's pending turns, and
the state after hard reset (R63). -/

namespace Sys2Proof.Machine

/-- The eight internal buffers (10_state.md R51). -/
inductive Buf where
  | bits | data | ecc | cw | matrix | rsin | rsout | gen
  deriving DecidableEq, Repr

/-- The contents of a buffer: the bytes written since the last reset that made them UNSPECIFIED, as (index, byte) pairs
with strictly rising indices. An index that is not listed has not been written, and reads as a draw (log entry 1). -/
abbrev Memory := List Host.Cell

/-- The canonical form of a buffer of `capacity` bytes: indices strictly rising, all below the capacity. -/
def Memory.wf (capacity : Nat) (m : Memory) : Bool :=
  decide ((m.map Prod.fst).Pairwise (· < ·)) && m.all fun cell => decide (cell.1 < capacity)

/-- The buffers of the second address space (10_state.md R51). -/
structure Buffers where
  bits : Memory
  data : Memory
  ecc : Memory
  cw : Memory
  matrix : Memory
  rsin : Memory
  rsout : Memory
  gen : Memory
  deriving DecidableEq, Repr

/-- The pipeline phase (10_state.md R55). Code 6 is never entered and has no constructor. -/
inductive Phase where
  | unsegmented | segmented | assembled | matrixBuilt | scored | finalized | fault
  deriving DecidableEq, Repr

/-- The interrupt enables of IRQEN (10_state.md R28). -/
structure IrqEnable where
  doneIe : Bool
  errIe : Bool
  accIe : Bool
  deriving DecidableEq, Repr

/-- The symbol parameters QR.BEGIN sets: VERSION, ECLEVEL, SIDE, NDATA, NCW, the four fields of BLOCKS, and REMBITS
(10_state.md R33 to R39). -/
structure Params where
  version : BitVec 6
  eclevel : BitVec 2
  side : BitVec 8
  ndata : BitVec 12
  ncw : BitVec 12
  nb : BitVec 8
  ecb : BitVec 8
  nshort : BitVec 8
  dshort : BitVec 8
  rembits : BitVec 3
  deriving DecidableEq, Repr

/-- The results of QR.EVAL: MASK, PEN0 to PEN7, SELP1 to SELP4, SELDARK (10_state.md R40, R48 to R50). -/
structure Scores where
  mask : BitVec 3
  pen : Vector Word 8
  selp : Vector Word 4
  seldark : Word
  deriving DecidableEq, Repr

/-- A host transaction is a read or a write (20_memory.md R71). -/
inductive AccessKind where
  | read | write
  deriving DecidableEq, Repr

/-- One host bus transaction: its kind, its width in bits, the byte offset in the CSR space (20_memory.md R70), and the
data of a write. -/
structure Access where
  kind : AccessKind
  width : Nat
  offset : BitVec 8
  data : Word
  deriving DecidableEq, Repr

/-- Who takes a step of the one total order of 20_memory.md R86: the host, the core, or the reset input
(70_reset_and_hazards.md R320). Log entry 4. -/
inductive Turn where
  /-- The host performs this transaction. -/
  | host (a : Access)
  /-- The core performs COMPLETE(), if a command is pending (45_control.md R262). -/
  | core
  /-- The reset input is asserted (70_reset_and_hazards.md R320). -/
  | hardReset
  deriving DecidableEq, Repr

/-- The whole state of QRC (10_state.md §§3 to 6). The last four fields are the model's own (log entries 3, 4, 7). -/
structure State where
  /-- The pending-command latch (R58). STATUS.BUSY is 1 exactly when it holds a word. -/
  latch : Option Word
  /-- LASTCMD, what a read of CMD returns (R29). -/
  lastCmd : Word
  /-- STATUS.DONE (R27). -/
  done : Bool
  /-- STATUS.ERR (R27). -/
  err : Bool
  /-- STATUS.ACCERR (R27). -/
  accErr : Bool
  /-- STATUS.PHASE (R27, R55). -/
  phase : Phase
  /-- STATUS.GENV (R27). -/
  genv : Bool
  /-- STATUS.RSV (R27). -/
  rsv : Bool
  /-- IRQEN (R28). -/
  irqen : IrqEnable
  /-- ERRCODE (R30). -/
  errcode : BitVec 8
  /-- ACCCODE (R31). -/
  acccode : BitVec 8
  /-- BITLEN (R32). -/
  bitlen : BitVec 15
  /-- VERSION to REMBITS (R33 to R39). -/
  params : Params
  /-- MASK, PEN0 to PEN7, SELP1 to SELP4, SELDARK (R40, R48 to R50). -/
  scores : Scores
  /-- FORMAT (R41). -/
  format : BitVec 15
  /-- VERINFO (R42). -/
  verinfo : BitVec 18
  /-- GFRES (R43). -/
  gfres : BitVec 8
  /-- ECCOUNT (R44). -/
  eccount : BitVec 8
  /-- BUF_SEL (R45). -/
  bufSel : BitVec 4
  /-- BUF_ADDR (R46). -/
  bufAddr : BitVec 16
  /-- The eight internal buffers (R51). -/
  bufs : Buffers
  /-- The data the host's last read returned (20_memory.md R71). The model's own: log entry 7. -/
  busData : Word
  /-- The turns still to come, the next one first. The model's own: log entry 4. -/
  agenda : List Turn
  /-- How many hard resets there have been: the index of the draws of BITS and RSIN. The model's own: log entry 3. -/
  powerOns : Nat
  /-- How many resets of either kind there have been: the index of the other buffers' draws. The model's own: log
  entry 3. -/
  resets : Nat
  deriving DecidableEq, Repr

/-- The one fault of the model. No rule of the spec stops the machine: command and access errors are next states. -/
inductive Fault where
  /-- A command, or the buffer port, addresses a byte at or past the capacity of this buffer (10_state.md R51): that byte
  does not exist. Raised by QR.ASM, QR.BUILD, QR.EVAL, QR.FINAL and the BUF_DATA port, only in states that no run
  reaches. Safe (log entry 8). -/
  | beyondCapacity (b : Buf)
  deriving DecidableEq, Repr

/-- Refusals of the model. -/
inductive Refusal where
  /-- The instruction has no meaning yet. Raised by no arm of exec: every instruction has its meaning. Safe. -/
  | notModelled (mnemonic : String)
  deriving DecidableEq, Repr

/-- What a step, a command and a host transaction answer. -/
abbrev Result := Host.Outcome State Fault Refusal

/-- The command errors of 60_exceptions.md R281. -/
inductive CmdError where
  | illegalCommand | invalidVersion | invalidEcLevel | payloadTooLarge | capacityMismatch | sequenceError | invalidEcCount
  | invalidLength | logOfZero
  deriving DecidableEq, Repr

/-- The access errors of 60_exceptions.md R290. -/
inductive AccError where
  | busy | unmapped | width | readOnly | bufRange | bufInvalid | bufSel
  deriving DecidableEq, Repr

/-- Every buffer with nothing written (10_state.md R63: contents UNSPECIFIED). -/
def Buffers.unwritten : Buffers :=
  { bits := [], data := [], ecc := [], cw := [], matrix := [], rsin := [], rsout := [], gen := [] }

/-- VERSION to REMBITS after reset: all 0 (10_state.md R63). -/
def Params.zero : Params :=
  { version := 0, eclevel := 0, side := 0, ndata := 0, ncw := 0, nb := 0, ecb := 0, nshort := 0, dshort := 0, rembits := 0 }

/-- MASK, PEN0 to PEN7, SELP1 to SELP4 and SELDARK after reset and after QR.BEGIN: all 0 (10_state.md R63,
42_assemble.md R160). -/
def Scores.zero : Scores :=
  { mask := 0, pen := Vector.replicate 8 0, selp := Vector.replicate 4 0, seldark := 0 }

/-- The state right after a hard reset (10_state.md R63, 70_reset_and_hazards.md R320), with no turn to come. -/
def State.reset : State :=
  { latch := none, lastCmd := 0, done := false, err := false, accErr := false, phase := .unsegmented, genv := false,
    rsv := false, irqen := { doneIe := false, errIe := false, accIe := false }, errcode := 0, acccode := 0, bitlen := 0,
    params := Params.zero, scores := Scores.zero, format := 0, verinfo := 0, gfres := 0, eccount := 0, bufSel := 0,
    bufAddr := 0, bufs := Buffers.unwritten, busData := 0, agenda := [], powerOns := 0, resets := 0 }

end Sys2Proof.Machine
end

