-- ==== Sys2Proof/Machine/Flags.lean ====
section
/-! DEFINITION. The flags and codes of QRC: the STATUS and IRQEN words, their writes, the interrupt line, the codes of
phases and errors (10_state.md R22, R27, R28, R55, 60_exceptions.md R281, R290, R300). -/

namespace Sys2Proof.Machine

/-- The PHASE code (10_state.md R55). -/
def Phase.code : Phase → BitVec 3
  | .unsegmented => 0
  | .segmented => 1
  | .assembled => 2
  | .matrixBuilt => 3
  | .scored => 4
  | .finalized => 5
  | .fault => 7

/-- The code written to ERRCODE (60_exceptions.md R281). -/
def CmdError.code : CmdError → BitVec 8
  | .illegalCommand => 1
  | .invalidVersion => 2
  | .invalidEcLevel => 3
  | .payloadTooLarge => 4
  | .capacityMismatch => 5
  | .sequenceError => 6
  | .invalidEcCount => 7
  | .invalidLength => 8
  | .logOfZero => 9

/-- The code written to ACCCODE (60_exceptions.md R290). -/
def AccError.code : AccError → BitVec 8
  | .busy => 1
  | .unmapped => 2
  | .width => 3
  | .readOnly => 4
  | .bufRange => 5
  | .bufInvalid => 6
  | .bufSel => 7

/-- STATUS.BUSY: a command is pending (10_state.md R27, R58). -/
def State.busy (s : State) : Bool :=
  s.latch.isSome

/-- A word with `b` at bit `i` and 0 elsewhere. -/
def bitWord (i : Nat) (b : Bool) : Word :=
  BitVec.ofNat 32 b.toNat <<< i

/-- A field of a register read as a word: `v` at bit `lo`, 0 elsewhere (10_state.md R24: a reserved bit reads 0). -/
def regField {n : Nat} (lo : Nat) (v : BitVec n) : Word :=
  v.setWidth 32 <<< lo

/-- What a read of STATUS returns (10_state.md R27). -/
def State.statusWord (s : State) : Word :=
  bitWord 0 s.busy ||| bitWord 1 s.done ||| bitWord 2 s.err ||| bitWord 3 s.accErr ||| regField 8 s.phase.code |||
    bitWord 12 s.genv ||| bitWord 13 s.rsv

/-- A host write to STATUS: bits 1, 2 and 3 are write-one-to-clear, every other bit is ignored (10_state.md R27). -/
def State.writeStatus (w : Word) (s : State) : State :=
  { s with
    done := s.done && !w.getLsbD 1
    err := s.err && !w.getLsbD 2
    accErr := s.accErr && !w.getLsbD 3 }

/-- What a read of IRQEN returns (10_state.md R28). -/
def State.irqenWord (s : State) : Word :=
  bitWord 1 s.irqen.doneIe ||| bitWord 2 s.irqen.errIe ||| bitWord 3 s.irqen.accIe

/-- A host write to IRQEN (10_state.md R28). -/
def State.writeIrqen (w : Word) (s : State) : State :=
  { s with irqen := { doneIe := w.getLsbD 1, errIe := w.getLsbD 2, accIe := w.getLsbD 3 } }

/-- The interrupt output (60_exceptions.md R300). -/
def State.irq (s : State) : Bool :=
  (s.done && s.irqen.doneIe) || (s.err && s.irqen.errIe) || (s.accErr && s.irqen.accIe)

/-- The flags and registers completion writes: ERRCODE, DONE, ERR, and BUSY with the latch (45_control.md R262). DONE
and ERR are set here and never cleared. -/
def State.settle (code : BitVec 8) (s : State) : State :=
  { s with errcode := code, done := true, err := s.err || code != 0, latch := none }

end Sys2Proof.Machine
end

