-- ==== Sys2Proof/Machine/Ops.lean ====
section
/-! DEFINITION. The named operations over buffers and registers that every meaning is built from: reading and writing
buffers, completing a command, raising a command error, rejecting a host access, reset. -/

namespace Sys2Proof.Machine

/-! ### Buffer contents -/

/-- The byte written at index `i`, if any since the reset that made the buffer UNSPECIFIED. -/
def Memory.get? (m : Memory) (i : Nat) : Option Byte :=
  match m.dropWhile fun cell => decide (cell.1 < i) with
  | [] => none
  | cell :: _ => if cell.1 = i then some cell.2 else none

/-- One byte written at index `i`, the canonical form kept. -/
def Memory.insert (i : Nat) (v : Byte) : Memory → Memory
  | [] => [(i, v)]
  | cell :: rest =>
    if cell.1 < i then cell :: Memory.insert i v rest
    else if cell.1 = i then (i, v) :: rest
    else (i, v) :: cell :: rest

/-- The bytes numbered from `i`. -/
def cellsFrom (i : Nat) : List Byte → Memory
  | [] => []
  | v :: rest => (i, v) :: cellsFrom (i + 1) rest

/-- The bytes written at indices 0, 1, …; bytes past them keep what they held (log entry 10). -/
def Memory.load (bytes : List Byte) (m : Memory) : Memory :=
  cellsFrom 0 bytes ++ m.filter fun cell => decide (bytes.length ≤ cell.1)

/-- The `n` bytes from index `i` on, an unwritten byte being `unwritten` of its index. -/
def Memory.block (unwritten : Nat → Byte) : Nat → Nat → Memory → List Byte
  | _, 0, _ => []
  | i, n + 1, m =>
    let rest := m.dropWhile fun cell => decide (cell.1 < i)
    (Memory.get? rest i).getD (unwritten i) :: Memory.block unwritten (i + 1) n rest

/-! ### The eight buffers -/

/-- The buffer's selector (10_state.md R51). -/
def Buf.sel : Buf → Nat
  | .bits => 0
  | .data => 1
  | .ecc => 2
  | .cw => 3
  | .matrix => 4
  | .rsin => 5
  | .rsout => 6
  | .gen => 7

/-- The buffer a selector names; selectors 8 to 15 are reserved (10_state.md R51). -/
def Buf.ofSel? : Nat → Option Buf
  | 0 => some .bits
  | 1 => some .data
  | 2 => some .ecc
  | 3 => some .cw
  | 4 => some .matrix
  | 5 => some .rsin
  | 6 => some .rsout
  | 7 => some .gen
  | _ => none

/-- The buffer's capacity in bytes (10_state.md R51). -/
def Buf.capacity : Buf → Nat
  | .bits => 2956
  | .data => 2956
  | .ecc => 2430
  | .cw => 3706
  | .matrix => 31329
  | .rsin => 256
  | .rsout => 30
  | .gen => 31

/-- Only BITS and RSIN are writable by the host (10_state.md R51, 20_memory.md R82). -/
def Buf.hostWritable : Buf → Bool
  | .bits => true
  | .rsin => true
  | _ => false

/-- The contents of a buffer. -/
def Buffers.get (b : Buf) (bs : Buffers) : Memory :=
  match b with
  | .bits => bs.bits
  | .data => bs.data
  | .ecc => bs.ecc
  | .cw => bs.cw
  | .matrix => bs.matrix
  | .rsin => bs.rsin
  | .rsout => bs.rsout
  | .gen => bs.gen

/-- The buffers with one buffer's contents replaced. -/
def Buffers.set (b : Buf) (m : Memory) (bs : Buffers) : Buffers :=
  match b with
  | .bits => { bs with bits := m }
  | .data => { bs with data := m }
  | .ecc => { bs with ecc := m }
  | .cw => { bs with cw := m }
  | .matrix => { bs with matrix := m }
  | .rsin => { bs with rsin := m }
  | .rsout => { bs with rsout := m }
  | .gen => { bs with gen := m }

/-- Bytes loaded into a buffer from index 0 on. -/
def Buffers.load (b : Buf) (bytes : List Byte) (bs : Buffers) : Buffers :=
  bs.set b (Memory.load bytes (bs.get b))

/-- The draw an unwritten byte of a buffer reads as (70_reset_and_hazards.md R321): BITS and RSIN become UNSPECIFIED at a
hard reset only, the other buffers at either reset (R322). -/
def State.draw (b : Buf) (i : Nat) (s : State) : Byte :=
  match b with
  | .bits => Config.unspecifiedByte s.powerOns b.sel i
  | .rsin => Config.unspecifiedByte s.powerOns b.sel i
  | _ => Config.unspecifiedByte s.resets b.sel i

/-- `MemRead(B:i, 1)` (00_scope.md R10). -/
def State.readByte (b : Buf) (i : Nat) (s : State) : Byte :=
  ((s.bufs.get b).get? i).getD (s.draw b i)

/-- `MemRead(B:0, 1)` to `MemRead(B:(n − 1), 1)`. -/
def State.readBlock (b : Buf) (n : Nat) (s : State) : List Byte :=
  Memory.block (fun i => s.draw b i) 0 n (s.bufs.get b)

/-- `MemWrite(B:i, 1, v)` (00_scope.md R10). -/
def State.writeByte (b : Buf) (i : Nat) (v : Byte) (s : State) : State :=
  { s with bufs := s.bufs.set b ((s.bufs.get b).insert i v) }

/-- The first buffer of which a command would touch more bytes than it has (10_state.md R51, log entry 8). Each entry
gives a buffer and how many of its bytes, from index 0 on, the command reads or writes. -/
def overrun? : List (Buf × Nat) → Option Buf
  | [] => none
  | (b, n) :: rest => if b.capacity < n then some b else overrun? rest

/-! ### Validity and extent -/

/-- The phases in which DATA, ECC and CW hold the codewords of the current symbol (10_state.md R52). -/
def Phase.hasCodewords : Phase → Bool
  | .assembled => true
  | .matrixBuilt => true
  | .scored => true
  | .finalized => true
  | _ => false

/-- The phases in which MATRIX holds a matrix of the current symbol (10_state.md R52). -/
def Phase.hasMatrix : Phase → Bool
  | .matrixBuilt => true
  | .scored => true
  | .finalized => true
  | _ => false

/-- A buffer's validity condition (10_state.md R52). -/
def State.bufValid (b : Buf) (s : State) : Bool :=
  match b with
  | .bits => true
  | .data => s.phase.hasCodewords
  | .ecc => s.phase.hasCodewords
  | .cw => s.phase.hasCodewords
  | .matrix => s.phase.hasMatrix
  | .rsin => true
  | .rsout => s.rsv
  | .gen => s.genv

/-- A buffer's extent (10_state.md R52). -/
def State.bufExtent (b : Buf) (s : State) : Nat :=
  match b with
  | .bits => 2956
  | .data => s.params.ndata.toNat
  | .ecc => s.params.nb.toNat * s.params.ecb.toNat
  | .cw => s.params.ncw.toNat
  | .matrix => s.params.side.toNat * s.params.side.toNat
  | .rsin => 256
  | .rsout => s.eccount.toNat
  | .gen => s.eccount.toNat + 1

/-! ### Completion, command errors, access errors -/

/-- A command completes successfully in state `s`, which already holds its effects (45_control.md R262, code 0). -/
def finish (s : State) : Result :=
  .next (s.settle 0)

/-- `raise CmdError(e)` (45_control.md R262, 60_exceptions.md R281): the failed command leaves the state `s` it found,
except that CapacityMismatch sets PHASE to FAULT (R285), and reports its code. QRC transfers control nowhere and saves
nothing else (R302). -/
def raiseCmdError (e : CmdError) (s : State) : Result :=
  .next ((if e = .capacityMismatch then { s with phase := .fault } else s).settle e.code)

/-- `raise AccError(e)` (60_exceptions.md R290): the access is rejected, reported in ACCCODE and ACCERR, and a rejected
read returns 0. -/
def rejectAccess (e : AccError) (kind : AccessKind) (s : State) : State :=
  { s with
    acccode := e.code
    accErr := true
    busData := match kind with
      | .read => 0
      | .write => s.busData }

/-! ### Reset -/

/-- Soft reset (70_reset_and_hazards.md R322): every register at its hard-reset value, the pending command discarded,
BITS and RSIN kept, the other buffers UNSPECIFIED and invalid. -/
def softReset (s : State) : State :=
  { State.reset with
    bufs := { Buffers.unwritten with bits := s.bufs.bits, rsin := s.bufs.rsin }
    busData := s.busData
    agenda := s.agenda
    powerOns := s.powerOns
    resets := s.resets + 1 }

/-- Hard reset (70_reset_and_hazards.md R320): one step that replaces the whole state; every buffer byte becomes a fresh
draw. The turns still to come are the outside world's and stay (log entry 15). -/
def hardReset (s : State) : State :=
  { State.reset with
    agenda := s.agenda
    powerOns := s.powerOns + 1
    resets := s.resets + 1 }

end Sys2Proof.Machine
end

