-- ==== Sys2Proof/Machine/Bus.lean ====
section
/-! DEFINITION. The host bus: the CSR map, reads and writes of registers, the buffer port, and one host transaction
(10_state.md R23 to R50, 20_memory.md R70 to R82, 60_exceptions.md R290, R291). -/

namespace Sys2Proof.Machine

/-- The registers of the CSR map (10_state.md R23). `pen k` is PENk for k from 0 to 7, `selp j` is SELP(j+1). -/
inductive Csr where
  | id | ctrl | status | irqen | cmd | errcode | acccode | bitlen | version | eclevel | side | ndata | ncw | blocks
  | rembits | mask | format | verinfo | gfres | eccount | bufSel | bufAddr | bufData | pen (k : Fin 8) | selp (j : Fin 4)
  | seldark
  deriving DecidableEq, Repr

/-- The registers at word-aligned offsets from 0x00 on, in order (10_state.md R23). -/
def csrLow : List Csr :=
  [ .id, .ctrl, .status, .irqen, .cmd, .errcode, .acccode, .bitlen, .version, .eclevel, .side, .ndata, .ncw, .blocks,
    .rembits, .mask, .format, .verinfo, .gfres, .eccount, .bufSel, .bufAddr, .bufData ]

/-- The registers at word-aligned offsets from 0x60 on, in order (10_state.md R23). -/
def csrHigh : List Csr :=
  [ .pen 0, .pen 1, .pen 2, .pen 3, .pen 4, .pen 5, .pen 6, .pen 7, .selp 0, .selp 1, .selp 2, .selp 3, .seldark ]

/-- The register at an aligned offset; 0x5C and 0x94 to 0xFC are unmapped (10_state.md R23, 20_memory.md R75). -/
def csrAt? (offset : Nat) : Option Csr :=
  if offset < 0x60 then csrLow[offset / 4]? else csrHigh[(offset - 0x60) / 4]?

/-- The offset of a register (10_state.md R23). -/
def Csr.offset : Csr → BitVec 8
  | .id => 0x00
  | .ctrl => 0x04
  | .status => 0x08
  | .irqen => 0x0C
  | .cmd => 0x10
  | .errcode => 0x14
  | .acccode => 0x18
  | .bitlen => 0x1C
  | .version => 0x20
  | .eclevel => 0x24
  | .side => 0x28
  | .ndata => 0x2C
  | .ncw => 0x30
  | .blocks => 0x34
  | .rembits => 0x38
  | .mask => 0x3C
  | .format => 0x40
  | .verinfo => 0x44
  | .gfres => 0x48
  | .eccount => 0x4C
  | .bufSel => 0x50
  | .bufAddr => 0x54
  | .bufData => 0x58
  | .pen k => 0x60 + 4 * BitVec.ofNat 8 k.val
  | .selp j => 0x80 + 4 * BitVec.ofNat 8 j.val
  | .seldark => 0x90

/-- A register the host may not write (20_memory.md R76). STATUS is not one: a write to it is W1C. -/
def Csr.readOnly : Csr → Bool
  | .ctrl => false
  | .status => false
  | .irqen => false
  | .cmd => false
  | .bitlen => false
  | .bufSel => false
  | .bufAddr => false
  | .bufData => false
  | _ => true

/-- The accesses accepted while a command is pending (20_memory.md R77). -/
def allowedWhileBusy (kind : AccessKind) (r : Csr) : Bool :=
  match kind with
  | .read => r ≠ .bufData
  | .write => r = .ctrl ∨ r = .status ∨ r = .irqen

/-- The value of the constant register ID (10_state.md R25). -/
def idWord : Word := 0x51524331

/-- What a read of BLOCKS returns (10_state.md R38). -/
def Params.blocksWord (p : Params) : Word :=
  regField 0 p.nb ||| regField 8 p.ecb ||| regField 16 p.nshort ||| regField 24 p.dshort

/-- The value a read of a register returns; reserved bits read 0 (10_state.md R24 to R50). BUF_DATA is a port: see
`readPort`. -/
def readCsr (r : Csr) (s : State) : Word :=
  match r with
  | .id => idWord
  | .ctrl => 0
  | .status => s.statusWord
  | .irqen => s.irqenWord
  | .cmd => s.lastCmd
  | .errcode => regField 0 s.errcode
  | .acccode => regField 0 s.acccode
  | .bitlen => regField 0 s.bitlen
  | .version => regField 0 s.params.version
  | .eclevel => regField 0 s.params.eclevel
  | .side => regField 0 s.params.side
  | .ndata => regField 0 s.params.ndata
  | .ncw => regField 0 s.params.ncw
  | .blocks => s.params.blocksWord
  | .rembits => regField 0 s.params.rembits
  | .mask => regField 0 s.scores.mask
  | .format => regField 0 s.format
  | .verinfo => regField 0 s.verinfo
  | .gfres => regField 0 s.gfres
  | .eccount => regField 0 s.eccount
  | .bufSel => regField 0 s.bufSel
  | .bufAddr => regField 0 s.bufAddr
  | .bufData => 0
  | .pen k => s.scores.pen[k]
  | .selp j => s.scores.selp[j]
  | .seldark => s.scores.seldark

/-- A write to CMD issues the word: it is neither decoded nor checked (10_state.md R29, 45_control.md R261). -/
def State.issue (w : Word) (s : State) : State :=
  { s with lastCmd := w, latch := some w }

/-- An accepted write to a register other than BUF_DATA (10_state.md R24, R26 to R29, R32, R45, R46). A read-only
register is unchanged: the access check has rejected the write. -/
def writeCsr (r : Csr) (w : Word) (s : State) : State :=
  match r with
  | .ctrl => if w.getLsbD 0 then softReset s else s
  | .status => s.writeStatus w
  | .irqen => s.writeIrqen w
  | .cmd => s.issue w
  | .bitlen => { s with bitlen := w.setWidth 15 }
  | .bufSel => { s with bufSel := w.setWidth 4 }
  | .bufAddr => { s with bufAddr := w.setWidth 16 }
  | _ => s

/-- PortCheck(sel, i, is_write) (20_memory.md R81): the selected buffer, or the first failing code. -/
def portCheck (kind : AccessKind) (s : State) : Except AccError Buf :=
  match Buf.ofSel? s.bufSel.toNat with
  | none => .error .bufSel
  | some b =>
    if kind = .write ∧ ¬ b.hostWritable then .error .readOnly
    else if ¬ s.bufValid b then .error .bufInvalid
    else if s.bufExtent b ≤ s.bufAddr.toNat then .error .bufRange
    else .ok b

/-- BUF_ADDR advances by 1 modulo 2^16 (20_memory.md R80). -/
def State.advance (s : State) : State :=
  { s with bufAddr := s.bufAddr + 1 }

/-- An access of BUF_DATA that passed the Width and Busy checks (20_memory.md R79, R80, R82): BUF_ADDR advances whether
or not PortCheck passes. A byte past the buffer's capacity does not exist (log entry 8). -/
def accessPort (kind : AccessKind) (w : Word) (s : State) : Result :=
  match portCheck kind s with
  | .error e => .next (rejectAccess e kind s).advance
  | .ok b =>
    if b.capacity ≤ s.bufAddr.toNat then .fault (.beyondCapacity b)
    else match kind with
      | .read => .next { s with busData := regField 0 (s.readByte b s.bufAddr.toNat) }.advance
      | .write => .next (s.writeByte b s.bufAddr.toNat (w.setWidth 8)).advance

/-- One host transaction, with its checks in the order of 60_exceptions.md R291. -/
def access (a : Access) (s : State) : Result :=
  if a.width ≠ 32 ∨ a.offset.toNat % 4 ≠ 0 then .next (rejectAccess .width a.kind s)
  else match csrAt? a.offset.toNat with
    | none => .next (rejectAccess .unmapped a.kind s)
    | some r =>
      if s.busy ∧ ¬ allowedWhileBusy a.kind r then .next (rejectAccess .busy a.kind s)
      else if a.kind = .write ∧ r.readOnly then .next (rejectAccess .readOnly a.kind s)
      else if r = .bufData then accessPort a.kind a.data s
      else match a.kind with
        | .read => .next { s with busData := readCsr r s }
        | .write => .next (writeCsr r a.data s)

end Sys2Proof.Machine
end

