-- ==== Sys2Proof/Machine/Operands.lean ====
section
/-! DEFINITION. The operands that are not in the command word (30_encoding.md R99): bit streams in byte buffers, the
segment bit stream, and lists indexed by position. -/

namespace Sys2Proof.Machine

/-- The bits of a byte, most significant first (00_scope.md R13). -/
def byteBits (v : Byte) : List Bool :=
  [v.getLsbD 7, v.getLsbD 6, v.getLsbD 5, v.getLsbD 4, v.getLsbD 3, v.getLsbD 2, v.getLsbD 1, v.getLsbD 0]

/-- The bit stream a byte sequence holds (00_scope.md R13). -/
def streamOf (bytes : List Byte) : List Bool :=
  bytes.flatMap byteBits

/-- The byte of eight bits, the first one as bit 7 (42_assemble.md R165). -/
def byteOf (bits : List Bool) : Byte :=
  BitVec.ofNat 8 (bits.foldl (fun n b => 2 * n + b.toNat) 0)

/-- `n` bytes cut from a bit stream, eight bits each. -/
def bytesOf : Nat → List Bool → List Byte
  | 0, _ => []
  | n + 1, bits => byteOf (bits.take 8) :: bytesOf n (bits.drop 8)

/-- `ceil(a / 8)` (00_scope.md R11). -/
def ceilDiv8 (a : Nat) : Nat :=
  (a + 7) / 8

/-- The segment bit stream `s[0 .. BITLEN − 1]` of buffer BITS (42_assemble.md R162). -/
def State.segmentStream (s : State) : List Bool :=
  (streamOf (s.readBlock .bits (ceilDiv8 s.bitlen.toNat))).take s.bitlen.toNat

/-- A list mapped with positions counted from `i`. -/
def mapFrom {α β : Type} (f : Nat → α → β) : Nat → List α → List β
  | _, [] => []
  | i, x :: rest => f i x :: mapFrom f (i + 1) rest

/-- `n` rows of `width` entries cut from a list (00_scope.md R12: the linear index of (r, c) is r·SIDE + c). -/
def rowsOf {α : Type} (width : Nat) : Nat → List α → List (List α)
  | 0, _ => []
  | n + 1, l => l.take width :: rowsOf width n (l.drop width)

/-- `|a − b|` on natural numbers (00_scope.md R11). -/
def absDiff (a b : Nat) : Nat :=
  (a - b) + (b - a)

end Sys2Proof.Machine
end

