-- ==== Sys2Proof/Machine/Rs.lean ====
section
/-! DEFINITION. The Reed-Solomon generator and polynomial divider: RS.GEN, RS.DIV (41_rs.md). -/

namespace Sys2Proof.Machine

/-- A coefficient list, highest degree first, multiplied by (x ⊕ r): each coefficient of the product is the sum of the
one at its place times x and the one before it times r (41_rs.md R141). -/
def mulRoot (g : List Byte) (r : Byte) : List Byte :=
  List.zipWith gadd (g ++ [0]) (0 :: g.map fun c => gmul c r)

/-- G_n, with `G_n[k]` the coefficient of x^(n−k) (41_rs.md R141). -/
def genPoly : Nat → List Byte
  | 0 => [1]
  | n + 1 => mulRoot (genPoly n) (gfExp n)

/-- One step of the divider: the remainder register shifts up one coefficient and takes the data byte `d` in
(41_rs.md R143). `taps` is G_n without its leading 1. -/
def rsShift (taps rem : List Byte) (d : Byte) : List Byte :=
  let f := gadd d (rem.headD 0)
  List.zipWith (fun c t => gadd c (gmul t f)) (rem.drop 1 ++ [0]) taps

/-- RSREM(d, n) (41_rs.md R143); the empty sequence for n = 0. -/
def rsRem (d : List Byte) (n : Nat) : List Byte :=
  let taps := (genPoly n).drop 1
  d.foldl (rsShift taps) (List.replicate n 0)

/-- The largest RS degree, MAX_EC (00_scope.md R8, 41_rs.md R142). -/
def maxEc : Nat := 30

/-- RS.GEN N (41_rs.md R145). -/
def execRsGen (n : Nat) (s : State) : Result :=
  if maxEc < n then raiseCmdError .invalidEcCount s
  else
    finish { s with
      bufs := s.bufs.load .gen (genPoly n)
      eccount := BitVec.ofNat 8 n
      genv := true
      rsv := false }

/-- RS.DIV N, LEN (41_rs.md R146). -/
def execRsDiv (n len : Nat) (s : State) : Result :=
  if maxEc < n then raiseCmdError .invalidEcCount s
  else if len = 0 ∨ 256 < len then raiseCmdError .invalidLength s
  else
    finish { s with
      bufs := (s.bufs.load .rsout (rsRem (s.readBlock .rsin len) n)).load .gen (genPoly n)
      eccount := BitVec.ofNat 8 n
      genv := true
      rsv := true }

end Sys2Proof.Machine
end

