-- ==== Sys2Proof/Machine/Tables.lean ====
section
/-! DEFINITION. The standard's tables as the spec states them: EC codewords per block, number of blocks, the derived
symbol parameters (42_assemble.md R170 to R172), and the alignment-pattern centres (43_matrix.md R196). -/

namespace Sys2Proof.Machine

/-- ECB(V, level) of 42_assemble.md R170: one row per level L, M, Q, H, one cell per ten versions. -/
def ecbTable : List (List (List Nat)) :=
  [ [[7, 10, 15, 20, 26, 18, 20, 24, 30, 18], [20, 24, 26, 30, 22, 24, 28, 30, 28, 28], [28, 28, 30, 30, 26, 28, 30, 30, 30, 30], [30, 30, 30, 30, 30, 30, 30, 30, 30, 30]],
    [[10, 16, 26, 18, 24, 16, 18, 22, 22, 26], [30, 22, 22, 24, 24, 28, 28, 26, 26, 26], [26, 28, 28, 28, 28, 28, 28, 28, 28, 28], [28, 28, 28, 28, 28, 28, 28, 28, 28, 28]],
    [[13, 22, 18, 26, 18, 24, 18, 22, 20, 24], [28, 26, 24, 20, 30, 24, 28, 28, 26, 30], [28, 30, 30, 30, 30, 28, 30, 30, 30, 30], [30, 30, 30, 30, 30, 30, 30, 30, 30, 30]],
    [[17, 28, 22, 16, 22, 28, 26, 26, 24, 28], [24, 28, 22, 24, 24, 30, 28, 28, 26, 28], [30, 24, 30, 30, 30, 30, 30, 30, 30, 30], [30, 30, 30, 30, 30, 30, 30, 30, 30, 30]] ]

/-- NB(V, level) of 42_assemble.md R171, laid out as `ecbTable`. -/
def nbTable : List (List (List Nat)) :=
  [ [[1, 1, 1, 1, 1, 2, 2, 2, 2, 4], [4, 4, 4, 4, 6, 6, 6, 6, 7, 8], [8, 9, 9, 10, 12, 12, 12, 13, 14, 15], [16, 17, 18, 19, 19, 20, 21, 22, 24, 25]],
    [[1, 1, 1, 2, 2, 4, 4, 4, 5, 5], [5, 8, 9, 9, 10, 10, 11, 13, 14, 16], [17, 17, 18, 20, 21, 23, 25, 26, 28, 29], [31, 33, 35, 37, 38, 40, 43, 45, 47, 49]],
    [[1, 1, 2, 2, 4, 4, 6, 6, 8, 8], [8, 10, 12, 16, 12, 17, 16, 18, 21, 20], [23, 23, 25, 27, 29, 34, 34, 35, 38, 40], [43, 45, 48, 51, 53, 56, 59, 62, 65, 68]],
    [[1, 1, 2, 4, 4, 4, 5, 6, 8, 8], [11, 11, 16, 16, 18, 16, 19, 21, 25, 25], [25, 34, 30, 32, 35, 37, 40, 42, 45, 48], [51, 54, 57, 60, 63, 66, 70, 74, 77, 81]] ]

/-- The entry of a version/level table for version `v` (1 to 40) and level code `e` (0 to 3). -/
def levelEntry (table : List (List (List Nat))) (v e : Nat) : Nat :=
  ((table.getD e []).getD ((v - 1) / 10) []).getD ((v - 1) % 10) 0

/-- ALIGN(V) of 43_matrix.md R196, one row per version, versions 1 to 20. -/
def alignTableLow : List (List Nat) :=
  [ [],
    [6, 18],
    [6, 22],
    [6, 26],
    [6, 30],
    [6, 34],
    [6, 22, 38],
    [6, 24, 42],
    [6, 26, 46],
    [6, 28, 50],
    [6, 30, 54],
    [6, 32, 58],
    [6, 34, 62],
    [6, 26, 46, 66],
    [6, 26, 48, 70],
    [6, 26, 50, 74],
    [6, 30, 54, 78],
    [6, 30, 56, 82],
    [6, 30, 58, 86],
    [6, 34, 62, 90] ]

/-- ALIGN(V) of 43_matrix.md R196, one row per version, versions 21 to 40. -/
def alignTableHigh : List (List Nat) :=
  [ [6, 28, 50, 72, 94],
    [6, 26, 50, 74, 98],
    [6, 30, 54, 78, 102],
    [6, 28, 54, 80, 106],
    [6, 32, 58, 84, 110],
    [6, 30, 58, 86, 114],
    [6, 34, 62, 90, 118],
    [6, 26, 50, 74, 98, 122],
    [6, 30, 54, 78, 102, 126],
    [6, 26, 52, 78, 104, 130],
    [6, 30, 56, 82, 108, 134],
    [6, 34, 60, 86, 112, 138],
    [6, 30, 58, 86, 114, 142],
    [6, 34, 62, 90, 118, 146],
    [6, 30, 54, 78, 102, 126, 150],
    [6, 24, 50, 76, 102, 128, 154],
    [6, 28, 54, 80, 106, 132, 158],
    [6, 32, 58, 84, 110, 136, 162],
    [6, 26, 54, 82, 110, 138, 166],
    [6, 30, 58, 86, 114, 142, 170] ]

/-- ALIGN(V) (43_matrix.md R196). -/
def alignCentres (v : Nat) : List Nat :=
  (alignTableLow ++ alignTableHigh).getD (v - 1) []

/-- SIDE(V) (00_scope.md R8). -/
def sideOf (v : Nat) : Nat :=
  17 + 4 * v

/-- RAWMOD(V) (42_assemble.md R172). -/
def rawModules (v : Nat) : Nat :=
  let a := v / 7 + 2
  (16 * v + 128) * v + 64 - (if 2 ≤ v then (25 * a - 10) * a - 55 else 0) - (if 7 ≤ v then 36 else 0)

/-- NCW(V) (42_assemble.md R172). -/
def ncwOf (v : Nat) : Nat :=
  rawModules v / 8

/-- REM(V) (42_assemble.md R172). -/
def remOf (v : Nat) : Nat :=
  rawModules v % 8

/-- ECB(V, level) (42_assemble.md R170). -/
def ecbOf (v e : Nat) : Nat :=
  levelEntry ecbTable v e

/-- NB(V, level) (42_assemble.md R171). -/
def nbOf (v e : Nat) : Nat :=
  levelEntry nbTable v e

/-- NDATA(V, level) (42_assemble.md R172). -/
def ndataOf (v e : Nat) : Nat :=
  ncwOf v - nbOf v e * ecbOf v e

/-- NSHORT(V, level) (42_assemble.md R172). -/
def nshortOf (v e : Nat) : Nat :=
  nbOf v e - ncwOf v % nbOf v e

/-- DSHORT(V, level) (42_assemble.md R172). -/
def dshortOf (v e : Nat) : Nat :=
  ncwOf v / nbOf v e - ecbOf v e

/-- What QR.BEGIN writes to VERSION, ECLEVEL, SIDE, NDATA, NCW, BLOCKS and REMBITS: PARAMS(V, level) (42_assemble.md
R160, R172). -/
def paramsOf (v e : Nat) : Params :=
  { version := BitVec.ofNat 6 v
    eclevel := BitVec.ofNat 2 e
    side := BitVec.ofNat 8 (sideOf v)
    ndata := BitVec.ofNat 12 (ndataOf v e)
    ncw := BitVec.ofNat 12 (ncwOf v)
    nb := BitVec.ofNat 8 (nbOf v e)
    ecb := BitVec.ofNat 8 (ecbOf v e)
    nshort := BitVec.ofNat 8 (nshortOf v e)
    dshort := BitVec.ofNat 8 (dshortOf v e)
    rembits := BitVec.ofNat 3 (remOf v) }

end Sys2Proof.Machine
end

