-- ==== Sys2Proof/Machine/Assemble.lean ====
section
/-! DEFINITION. Symbol set-up, codeword assembler and interleaver: QR.BEGIN, QR.ASM (42_assemble.md). -/

namespace Sys2Proof.Machine

/-- QR.BEGIN VER, ECL (42_assemble.md R160): the version check comes first, and a failure changes nothing, PHASE included.
45_control.md R264 concludes that after a failed pipeline command every later one of the same ENCODE fails; a QR.BEGIN that
fails in SEGMENTED to SCORED leaves that phase, so a later command may succeed there: the model follows R160 and
10_state.md R56, not that sentence (log entry 21, DEDUCED). -/
def execQrBegin (ver ecl : Nat) (s : State) : Result :=
  if ver < 1 ∨ 40 < ver then raiseCmdError .invalidVersion s
  else if 3 < ecl then raiseCmdError .invalidEcLevel s
  else
    finish { s with
      params := paramsOf ver ecl
      scores := Scores.zero
      format := 0
      verinfo := 0
      phase := .segmented }

/-- The pad codewords 0xEC, 0x11, 0xEC, … (42_assemble.md R165). -/
def padBytes : Nat → List Byte
  | 0 => []
  | 1 => [0xEC]
  | n + 2 => 0xEC :: 0x11 :: padBytes n

/-- PAD(s, NDATA) (42_assemble.md R165): terminator of at most four zero bits, zero bits to the byte boundary, pad
codewords to the capacity. -/
def padStream (stream : List Bool) (ndata : Nat) : List Byte :=
  let terminated := stream ++ List.replicate (min 4 (8 * ndata - stream.length)) false
  let nbytes := ceilDiv8 terminated.length
  let aligned := terminated ++ List.replicate (8 * nbytes - terminated.length) false
  bytesOf nbytes aligned ++ padBytes (ndata - nbytes)

/-- The data codewords of each block, in block order: short blocks first (42_assemble.md R166). -/
def blockLengths (nb nshort dshort : Nat) : List Nat :=
  (List.range nb).map fun b => if b < nshort then dshort else dshort + 1

/-- SPLIT(data): each block takes the next codewords (42_assemble.md R166). -/
def splitBlocks : List Nat → List Byte → List (List Byte)
  | [], _ => []
  | n :: rest, data => data.take n :: splitBlocks rest (data.drop n)

/-- The columns 0 to `n − 1` of the blocks, each column from the blocks that have it, in block order (42_assemble.md
R168). -/
def interleaveColumns (n : Nat) (blocks : List (List Byte)) : List Byte :=
  (List.range n).flatMap fun i => blocks.filterMap fun block => block[i]?

/-- The DATA, ECC and CW contents QR.ASM leaves (42_assemble.md R163, R165 to R168). -/
structure Codewords where
  data : List Byte
  ecc : List Byte
  cw : List Byte
  deriving DecidableEq, Repr

/-- Assembly of a segment bit stream under symbol parameters `p` (42_assemble.md R163, R165 to R168). -/
def assemble (p : Params) (stream : List Bool) : Codewords :=
  let data := padStream stream p.ndata.toNat
  let blocks := splitBlocks (blockLengths p.nb.toNat p.nshort.toNat p.dshort.toNat) data
  let ec := blocks.map fun block => rsRem block p.ecb.toNat
  { data := data
    ecc := ec.flatten
    cw := interleaveColumns (p.dshort.toNat + 1) blocks ++ interleaveColumns p.ecb.toNat ec }

/-- Bytes of each buffer QR.ASM touches (10_state.md R51). -/
def asmReach (s : State) : List (Buf × Nat) :=
  let p := s.params
  [ (.bits, ceilDiv8 s.bitlen.toNat), (.data, p.ndata.toNat), (.ecc, p.nb.toNat * p.ecb.toNat),
    (.cw, (assemble p s.segmentStream).cw.length) ]

/-- QR.ASM (42_assemble.md R163): the phase check first, then the capacity check (R164). -/
def execQrAsm (s : State) : Result :=
  if s.phase ≠ .segmented then raiseCmdError .sequenceError s
  else if 8 * s.params.ndata.toNat < s.bitlen.toNat then raiseCmdError .payloadTooLarge s
  else match overrun? (asmReach s) with
    | some b => .fault (.beyondCapacity b)
    | none =>
      let out := assemble s.params s.segmentStream
      finish { s with
        bufs := ((s.bufs.load .data out.data).load .ecc out.ecc).load .cw out.cw
        phase := .assembled }

end Sys2Proof.Machine
end

