-- ==== Sys2Proof/Machine/Control.lean ====
section
/-! DEFINITION. Command sequencing: NOP (45_control.md R260). -/

namespace Sys2Proof.Machine

/-- NOP (45_control.md R260): only the completion bookkeeping takes effect. -/
def execNop (s : State) : Result :=
  finish s

end Sys2Proof.Machine
end

