-- ==== Sys2Proof/Machine/Matrix.lean ====
section
/-! DEFINITION. The matrix builder, function-pattern placer and zig-zag sequencer: QR.BUILD (43_matrix.md). -/

namespace Sys2Proof.Machine

/-! ### Cell codes (10_state.md R53) -/

/-- UNSET: data region, no bit placed yet. -/
def cellUnset : Byte := 0b000

/-- DATA_LIGHT or DATA_DARK. -/
def dataCell (dark : Bool) : Byte := if dark then 0b011 else 0b010

/-- RSV_UNSET: reserved for format or version information. -/
def cellReserved : Byte := 0b100

/-- FUNC_LIGHT or FUNC_DARK. -/
def funcCell (dark : Bool) : Byte := if dark then 0b111 else 0b110

/-! ### The local array M of a command -/

/-- A matrix of cell codes, by rows (00_scope.md R12). -/
abbrev Matrix := List (List Byte)

/-- The cell at row `r`, column `c`. -/
def Matrix.cell (m : Matrix) (r c : Nat) : Byte :=
  (m.getD r []).getD c 0

/-- The matrix with one cell set; a place outside the matrix is not set. -/
def Matrix.put (r c : Nat) (v : Byte) (m : Matrix) : Matrix :=
  m.set r ((m.getD r []).set c v)

/-- The S×S matrix of UNSET cells (43_matrix.md R190). -/
def Matrix.blank (side : Nat) : Matrix :=
  List.replicate side (List.replicate side cellUnset)

/-- A step that writes some cells and leaves the others: `pattern r c` is what it writes at (r, c), if anything. -/
def Matrix.overlay (pattern : Nat → Nat → Option Byte) (m : Matrix) : Matrix :=
  mapFrom (fun r row => mapFrom (fun c old => (pattern r c).getD old) 0 row) 0 m

/-- The same code put at each place of a list. -/
def Matrix.putAll (places : List (Nat × Nat)) (v : Byte) (m : Matrix) : Matrix :=
  places.foldl (fun m p => m.put p.1 p.2 v) m

/-- The number of UNSET cells. -/
def Matrix.unsetCount (m : Matrix) : Nat :=
  (m.map fun row => row.count cellUnset).sum

/-! ### Function patterns (43_matrix.md R192 to R198) -/

/-- The centre of `centres` within `radius` of the coordinate `x`. Two centres of one version are always further apart
than twice the radius, so there is at most one. -/
def nearCentre? (radius : Nat) (centres : List Nat) (x : Nat) : Option Nat :=
  centres.find? fun a => decide (absDiff x a ≤ radius)

/-- Chebyshev distance of (r, c) from (r0, c0) (43_matrix.md R193). -/
def chebyshev (r0 c0 r c : Nat) : Nat :=
  max (absDiff r r0) (absDiff c c0)

/-- PLACE_FINDERS: the finder patterns at (3, 3), (3, S−4) and (S−4, 3), dark but for the ring at distance 2, and their
light separators at distance 4 (43_matrix.md R193, R194). -/
def finderPattern (side r c : Nat) : Option Byte :=
  match nearCentre? 4 [3, side - 4] r with
  | none => none
  | some a =>
    match nearCentre? 4 [3, side - 4] c with
    | none => none
    | some b =>
      if a = 3 ∨ b = 3 then
        let d := chebyshev a b r c
        some (funcCell (d ≠ 2 && d ≠ 4))
      else none

/-- PLACE_TIMING: row 6 and column 6 between the finders, dark at even positions (43_matrix.md R195). -/
def timingPattern (side r c : Nat) : Option Byte :=
  if r = 6 ∧ 8 ≤ c ∧ c + 9 ≤ side then some (funcCell (c % 2 = 0))
  else if c = 6 ∧ 8 ≤ r ∧ r + 9 ≤ side then some (funcCell (r % 2 = 0))
  else none

/-- PLACE_ALIGNMENT: the 5×5 patterns at every pair of centres but the three that would overlap a finder, dark but for
the ring at distance 1 (43_matrix.md R197). -/
def alignmentPattern (centres : List Nat) (r c : Nat) : Option Byte :=
  match nearCentre? 2 centres r with
  | none => none
  | some a =>
    match nearCentre? 2 centres c with
    | none => none
    | some b =>
      let first := centres.headD 0
      let last := centres.getLastD 0
      if (a = first ∧ b = first) ∨ (a = first ∧ b = last) ∨ (a = last ∧ b = first) then none
      else some (funcCell (chebyshev a b r c ≠ 1))

/-- FMT_A(i): the cell of format bit `i` in copy A (43_matrix.md R198). -/
def formatCellA (i : Nat) : Nat × Nat :=
  if i ≤ 5 then (i, 8) else if i = 6 then (7, 8) else if i = 7 then (8, 8) else if i = 8 then (8, 7) else (8, 14 - i)

/-- FMT_B(i): the cell of format bit `i` in copy B (43_matrix.md R198). -/
def formatCellB (side i : Nat) : Nat × Nat :=
  if i ≤ 7 then (8, side - 1 - i) else (side + i - 15, 8)

/-- FMT_CELLS(S): both copies (43_matrix.md R198). -/
def formatCells (side : Nat) : List (Nat × Nat) :=
  (List.range 15).flatMap fun i => [formatCellA i, formatCellB side i]

/-- VER_TR(i): the cell of version bit `i` in the top-right copy (43_matrix.md R198). -/
def versionCellTR (side i : Nat) : Nat × Nat :=
  (i / 3, side - 11 + i % 3)

/-- VER_BL(i): the cell of version bit `i` in the bottom-left copy (43_matrix.md R198). -/
def versionCellBL (side i : Nat) : Nat × Nat :=
  (side - 11 + i % 3, i / 3)

/-- VER_CELLS(S): both copies (43_matrix.md R198). -/
def versionCells (side : Nat) : List (Nat × Nat) :=
  (List.range 18).flatMap fun i => [versionCellTR side i, versionCellBL side i]

/-- RESERVE_INFO(M, V): format cells, dark module, and from version 7 on the version cells (43_matrix.md R198). -/
def reserveInfo (v side : Nat) (m : Matrix) : Matrix :=
  let m := (m.putAll (formatCells side) cellReserved).put (side - 8) 8 (funcCell true)
  if 7 ≤ v then m.putAll (versionCells side) cellReserved else m

/-- The matrix after steps 1 to 4 of QR.BUILD (43_matrix.md R190). -/
def functionMatrix (v side : Nat) : Matrix :=
  reserveInfo v side
    ((((Matrix.blank side).overlay (finderPattern side)).overlay (timingPattern side)).overlay
      (alignmentPattern (alignCentres v)))

/-! ### The zig-zag sequencer (43_matrix.md R200, R201) -/

/-- The right columns of the column pairs, from column `right` leftward, column 6 skipped (43_matrix.md R200). `fuel`
bounds the number of pairs. -/
def pairColumns : (fuel right : Nat) → List Nat
  | 0, _ => []
  | fuel + 1, right =>
    if right < 1 then []
    else
      let right := if right = 6 then 5 else right
      right :: pairColumns fuel (right - 2)

/-- The modules of one column pair in traversal order: upward or downward, right column first (43_matrix.md R200). -/
def pairModules (side right : Nat) : List (Nat × Nat) :=
  let upward := (right + 1) &&& 2 = 0
  (List.range side).flatMap fun vert =>
    let r := if upward then side - 1 - vert else vert
    [(r, right), (r, right - 1)]

/-- Every module the sequencer visits, in order (43_matrix.md R200). -/
def zigzag (side : Nat) : List (Nat × Nat) :=
  (pairColumns side (side - 1)).flatMap (pairModules side)

/-- PLACE_DATA: each visited module that is still UNSET takes the next bit; past the last bit the remainder modules are
light (43_matrix.md R200, R201). -/
def placeData : List (Nat × Nat) → List Bool → Matrix → Matrix
  | [], _, m => m
  | (r, c) :: rest, bits, m =>
    if m.cell r c = cellUnset then placeData rest (bits.drop 1) (m.put r c (dataCell (bits.headD false)))
    else placeData rest bits m

/-- The unmasked matrix of QR.BUILD (43_matrix.md R190). -/
def buildMatrix (v side : Nat) (codewords : List Byte) : Matrix :=
  placeData (zigzag side) (streamOf codewords) (functionMatrix v side)

/-! ### The command -/

/-- The capacity check of QR.BUILD passes: 0 ≤ avail − 8·NCW ≤ 7 (43_matrix.md R202). -/
def capacityMatches (avail ncw : Nat) : Bool :=
  decide (8 * ncw ≤ avail) && decide (avail ≤ 8 * ncw + 7)

/-- Bytes of each buffer QR.BUILD touches once its checks have passed (10_state.md R51). -/
def buildReach (s : State) : List (Buf × Nat) :=
  [(.cw, s.params.ncw.toNat), (.matrix, s.params.side.toNat * s.params.side.toNat)]

/-- QR.BUILD (43_matrix.md R190): the phase check first, then the capacity check, which comes before CW is read or MATRIX
is written and sets FAULT (R202, 60_exceptions.md R285). -/
def execQrBuild (s : State) : Result :=
  let v := s.params.version.toNat
  let side := s.params.side.toNat
  let ncw := s.params.ncw.toNat
  if s.phase ≠ .assembled then raiseCmdError .sequenceError s
  else if ¬ capacityMatches (functionMatrix v side).unsetCount ncw then raiseCmdError .capacityMismatch s
  else match overrun? (buildReach s) with
    | some b => .fault (.beyondCapacity b)
    | none =>
      finish { s with
        bufs := s.bufs.load .matrix (buildMatrix v side (s.readBlock .cw ncw)).flatten
        phase := .matrixBuilt }

end Sys2Proof.Machine
end

