-- ==== Sys2Proof/Machine/Mask.lean ====
section
/-! DEFINITION. The mask evaluator, the penalty scorer and the finaliser: QR.EVAL, QR.FINAL (44_mask.md). -/

namespace Sys2Proof.Machine

/-! ### Mask functions (44_mask.md R220, R222) -/

/-- MASKF(k, i, j): mask `k` flips the module at row `i`, column `j` (44_mask.md R220). -/
def maskFlips (k i j : Nat) : Bool :=
  match k with
  | 0 => decide ((i + j) % 2 = 0)
  | 1 => decide (i % 2 = 0)
  | 2 => decide (j % 3 = 0)
  | 3 => decide ((i + j) % 3 = 0)
  | 4 => decide ((i / 2 + j / 3) % 2 = 0)
  | 5 => decide (i * j % 2 + i * j % 3 = 0)
  | 6 => decide ((i * j % 2 + i * j % 3) % 2 = 0)
  | 7 => decide (((i + j) % 2 + i * j % 3) % 2 = 0)
  | _ => false

/-- MASKAPPLY(code, k, r, c): only data modules are flipped (44_mask.md R222). -/
def maskApply (k r c : Nat) (code : Byte) : Byte :=
  if (code = dataCell false ∨ code = dataCell true) ∧ maskFlips k r c then code ^^^ 0b001 else code

/-- A matrix with mask `k` applied to every cell (44_mask.md R238). -/
def maskMatrix (k : Nat) (m : Matrix) : Matrix :=
  mapFrom (fun r row => mapFrom (fun c code => maskApply k r c code) 0 row) 0 m

/-- A cell is dark: bit 0 of its code (10_state.md R53). -/
def cellDark (code : Byte) : Bool :=
  code.getLsbD 0

/-- CAND(k): the colours of candidate `k`, true for dark (44_mask.md R223). -/
def candidate (k : Nat) (m : Matrix) : List (List Bool) :=
  (maskMatrix k m).map fun row => row.map cellDark

/-! ### Penalty rules (44_mask.md R224 to R228) -/

/-- The columns of a matrix of `width` columns, left to right. -/
def columnsOf {α : Type} (width : Nat) (rows : List (List α)) : List (List α) :=
  rows.foldr (fun row cols => List.zipWith List.cons row cols) (List.replicate width [])

/-- The lengths of the maximal runs of a line whose current run has colour `colour` and length `len` so far. -/
def runLengthsFrom (colour : Bool) (len : Nat) : List Bool → List Nat
  | [] => [len]
  | x :: rest => if x = colour then runLengthsFrom colour (len + 1) rest else len :: runLengthsFrom x 1 rest

/-- The lengths of the maximal runs of equal colours in a line (44_mask.md R225). -/
def runLengths : List Bool → List Nat
  | [] => []
  | x :: rest => runLengthsFrom x 1 rest

/-- What a maximal run of length `len` adds to rule 1 (44_mask.md R225). -/
def runPenalty (len : Nat) : Nat :=
  if 5 ≤ len then 3 + (len - 5) else 0

/-- Rule 1 on one line (44_mask.md R225). -/
def rule1Line (line : List Bool) : Nat :=
  ((runLengths line).map runPenalty).sum

/-- Rule 2 on two neighbouring rows: each 2×2 window of one colour adds 3 (44_mask.md R226). -/
def rule2Rows : List Bool → List Bool → Nat
  | a :: b :: upper, c :: d :: lower =>
    (if a = b ∧ b = c ∧ c = d then 3 else 0) + rule2Rows (b :: upper) (d :: lower)
  | _, _ => 0

/-- Rule 2 (44_mask.md R226). -/
def rule2 : List (List Bool) → Nat
  | upper :: lower :: rest => rule2Rows upper lower + rule2 (lower :: rest)
  | _ => 0

/-- PA of 44_mask.md R227. -/
def finderThenLight : List Bool :=
  [true, false, true, true, true, false, true, false, false, false, false]

/-- PB of 44_mask.md R227. -/
def lightThenFinder : List Bool :=
  [false, false, false, false, true, false, true, true, true, false, true]

/-- Rule 3 on one line: each window of 11 modules equal to PA or PB adds 40 (44_mask.md R227). -/
def rule3Line : List Bool → Nat
  | [] => 0
  | x :: rest =>
    (if (x :: rest).take 11 = finderThenLight ∨ (x :: rest).take 11 = lightThenFinder then 40 else 0) + rule3Line rest

/-- Rule 4 for `dk` dark modules of `total` (44_mask.md R228): `ceil(dev / total) − 1` steps of 10, at least 0. -/
def rule4 (dk total : Nat) : Nat :=
  10 * ((absDiff (20 * dk) (10 * total) + total - 1) / total - 1)

/-- SCORE(C) of 44_mask.md R224: the four rule scores and the dark count. -/
structure Score where
  p1 : Nat
  p2 : Nat
  p3 : Nat
  p4 : Nat
  dark : Nat
  deriving DecidableEq, Repr

/-- The total penalty T of a score (44_mask.md R224). -/
def Score.total (x : Score) : Nat :=
  x.p1 + x.p2 + x.p3 + x.p4

/-- SCORE(C) for a candidate of side `side` (44_mask.md R224 to R228). -/
def scoreOf (side : Nat) (rows : List (List Bool)) : Score :=
  let lines := rows ++ columnsOf side rows
  let dark := (rows.map fun row => row.count true).sum
  { p1 := (lines.map rule1Line).sum
    p2 := rule2 rows
    p3 := (lines.map rule3Line).sum
    p4 := rule4 dark (side * side)
    dark := dark }

/-- The scores of the eight lanes on one unmasked matrix (44_mask.md R229, R230). -/
def laneScores (side : Nat) (m : Matrix) : List Score :=
  (List.range 8).map fun k => scoreOf side (candidate k m)

/-- The mask id with the least total, the least id among equals (44_mask.md R233). -/
def selectMask (totals : List Nat) : Nat :=
  (List.range totals.length).foldl
    (fun best k => if totals.getD k 0 < totals.getD best 0 then k else best) 0

/-- What QR.EVAL writes to MASK, PEN0 to PEN7, SELP1 to SELP4 and SELDARK (44_mask.md R230). -/
def scoresOf (lanes : List Score) : Scores :=
  let sel := selectMask (lanes.map Score.total)
  let best := lanes.getD sel ⟨0, 0, 0, 0, 0⟩
  let pen := fun k => BitVec.ofNat 32 ((lanes.map Score.total).getD k 0)
  { mask := BitVec.ofNat 3 sel
    pen := #v[pen 0, pen 1, pen 2, pen 3, pen 4, pen 5, pen 6, pen 7]
    selp := #v[BitVec.ofNat 32 best.p1, BitVec.ofNat 32 best.p2, BitVec.ofNat 32 best.p3, BitVec.ofNat 32 best.p4]
    seldark := BitVec.ofNat 32 best.dark }

/-! ### QR.EVAL -/

/-- The matrix the MATRIX buffer holds (10_state.md R51: the cell of (r, c) at index r·SIDE + c). -/
def State.matrixRows (s : State) : Matrix :=
  let side := s.params.side.toNat
  rowsOf side side (s.readBlock .matrix (side * side))

/-- Bytes of each buffer QR.EVAL and QR.FINAL touch (10_state.md R51). -/
def matrixReach (s : State) : List (Buf × Nat) :=
  [(.matrix, s.params.side.toNat * s.params.side.toNat)]

/-- QR.EVAL (44_mask.md R230). -/
def execQrEval (s : State) : Result :=
  if s.phase ≠ .matrixBuilt then raiseCmdError .sequenceError s
  else match overrun? (matrixReach s) with
    | some b => .fault (.beyondCapacity b)
    | none =>
      finish { s with
        scores := scoresOf (laneScores s.params.side.toNat s.matrixRows)
        phase := .scored }

/-! ### Format and version information (44_mask.md R235 to R242) -/

/-- The bit length of a number. -/
def bitLength (n : Nat) : Nat :=
  if n = 0 then 0 else n.log2 + 1

/-- One step of the GF(2) long division at bit `i` of the dividend (44_mask.md R236). -/
def bchReduce (g m r i : Nat) : Nat :=
  if r.testBit i then r ^^^ (g <<< (i - m)) else r

/-- BCH(data, g, m): `data` followed by its `m`-bit remainder modulo `g` (44_mask.md R236). -/
def bch (data g m : Nat) : Nat :=
  let r := data <<< m
  let positions := ((List.range (bitLength r)).filter fun i => decide (m ≤ i)).reverse
  (data <<< m) ||| positions.foldl (bchReduce g m) r

/-- FDATA: the level bits, which are ECLEVEL XOR 1, and the mask id (44_mask.md R235). -/
def formatData (e k : Nat) : Nat :=
  ((e ^^^ 1) <<< 3) ||| k

/-- FMTWORD(e, k) (44_mask.md R237). -/
def formatWord (e k : Nat) : BitVec 15 :=
  BitVec.ofNat 15 (bch (formatData e k) 0x537 10 ^^^ 0x5412)

/-- VERWORD(V) (44_mask.md R241). -/
def versionWord (v : Nat) : BitVec 18 :=
  BitVec.ofNat 18 (bch v 0x1F25 12)

/-- The word QR.FINAL writes to VERINFO (44_mask.md R238): 0 below version 7. -/
def verinfoOf (v : Nat) : BitVec 18 :=
  if 7 ≤ v then versionWord v else 0

/-- The format word written to both of its copies (44_mask.md R240). -/
def writeFormat (side : Nat) (fw : BitVec 15) (m : Matrix) : Matrix :=
  (List.range 15).foldl (fun m i => m.putAll [formatCellA i, formatCellB side i] (funcCell (fw.getLsbD i))) m

/-- The version word written to both of its copies (44_mask.md R242). -/
def writeVersion (side : Nat) (vw : BitVec 18) (m : Matrix) : Matrix :=
  (List.range 18).foldl (fun m i => m.putAll [versionCellTR side i, versionCellBL side i] (funcCell (vw.getLsbD i))) m

/-- The final matrix of QR.FINAL (44_mask.md R238): the selected mask, then the information bits. -/
def finalMatrix (v side k : Nat) (fw : BitVec 15) (m : Matrix) : Matrix :=
  let masked := writeFormat side fw (maskMatrix k m)
  if 7 ≤ v then writeVersion side (verinfoOf v) masked else masked

/-- QR.FINAL (44_mask.md R238). -/
def execQrFinal (s : State) : Result :=
  let v := s.params.version.toNat
  let k := s.scores.mask.toNat
  let fw := formatWord s.params.eclevel.toNat k
  if s.phase ≠ .scored then raiseCmdError .sequenceError s
  else match overrun? (matrixReach s) with
    | some b => .fault (.beyondCapacity b)
    | none =>
      finish { s with
        bufs := s.bufs.load .matrix (finalMatrix v s.params.side.toNat k fw s.matrixRows).flatten
        format := fw
        verinfo := verinfoOf v
        phase := .finalized }

/-! ### Symbol accessors (10_state.md R62) -/

/-- `side()`. -/
def State.symSide (s : State) : Nat :=
  s.params.side.toNat

/-- `version()`. -/
def State.symVersion (s : State) : Nat :=
  s.params.version.toNat

/-- `ecLevel()`, by its code (10_state.md R34). -/
def State.symEcLevel (s : State) : Nat :=
  s.params.eclevel.toNat

/-- `isDark(r, c)`: bit 0 of the MATRIX cell at r·SIDE + c. -/
def State.isDark (r c : Nat) (s : State) : Bool :=
  cellDark (s.readByte .matrix (r * s.params.side.toNat + c))

end Sys2Proof.Machine
end

