-- ==== Sys2Proof/Machine/Dispatch.lean ====
section
/-! DEFINITION. The execution of a decoded command at its completion (30_encoding.md R101, 45_control.md R262): one arm
per command. -/

namespace Sys2Proof.Machine

def exec (i : Instr) (s : State) : Host.Outcome State Fault Refusal :=
  match i with
  | .nop => Sys2Proof.Machine.execNop s
  | .gfMul a b => Sys2Proof.Machine.execGfMul a b s
  | .gfPow a e => Sys2Proof.Machine.execGfPow a e s
  | .gfExp x => Sys2Proof.Machine.execGfExp x s
  | .gfLog a => Sys2Proof.Machine.execGfLog a s
  | .rsGen n => Sys2Proof.Machine.execRsGen n s
  | .rsDiv n len => Sys2Proof.Machine.execRsDiv n len s
  | .qrBegin ver ecl => Sys2Proof.Machine.execQrBegin ver ecl s
  | .qrAsm => Sys2Proof.Machine.execQrAsm s
  | .qrBuild => Sys2Proof.Machine.execQrBuild s
  | .qrEval => Sys2Proof.Machine.execQrEval s
  | .qrFinal => Sys2Proof.Machine.execQrFinal s

end Sys2Proof.Machine
end

