-- ==== Sys2Proof/Machine/Completion.lean ====
section
/-! DEFINITION. The completion step and the turns of the one total order (45_control.md R261 to R263, 20_memory.md R86). -/

namespace Sys2Proof.Machine

/-- COMPLETE() on the latched word `w` (45_control.md R262): decode and execute it; an illegal word ends with
IllegalCommand (30_encoding.md R101, R102). -/
def complete (w : Word) (s : State) : Result :=
  match decode w with
  | .ok i => exec i s
  | .error _ => raiseCmdError .illegalCommand s

/-- The core's turn: COMPLETE() is enabled exactly when a command is pending (45_control.md R262); otherwise nothing
happens. -/
def coreTurn (s : State) : Result :=
  match s.latch with
  | some w => complete w s
  | none => .next s

/-- One turn of the total order of 20_memory.md R86. -/
def takeTurn (t : Turn) (s : State) : Result :=
  match t with
  | .host a => access a s
  | .core => coreTurn s
  | .hardReset => .next (hardReset s)

/-- The next turn on the agenda is taken. When the outside world has no turn left, a pending command completes
(45_control.md R263, progress), and an idle machine keeps its state (60_exceptions.md R314); log entry 5. -/
def nextTurn (s : State) : Result :=
  match s.agenda with
  | [] => coreTurn s
  | t :: rest => takeTurn t { s with agenda := rest }

/-- The command word `w` pending and the core's turn next: what a host write of `w` to CMD, followed by COMPLETE(),
brings about (log entry 6). -/
def State.pend (w : Word) (s : State) : State :=
  { s.issue w with agenda := .core :: s.agenda }

end Sys2Proof.Machine
end

