-- ==== Sys2Proof/Machine/Step.lean ====
section
/-! DEFINITION. One step of QRC: one host transaction, one completion, or one hard reset (20_memory.md R86, 45_control.md
R263, 70_reset_and_hazards.md R320). -/

namespace Sys2Proof.Machine

/-- One step of the machine. -/
def step (s : State) : Host.Outcome State Fault Refusal :=
  nextTurn s

/-- `s` with the command word of the table bits `w` pending, so that the very next step completes it. QRC fetches
nothing (10_state.md R21): a command comes from the host's write to CMD, for which this stands (log entry 6). -/
def State.withFetchWord (s : State) (nbits w : Nat) : State :=
  s.pend (tableWord nbits w)

end Sys2Proof.Machine
end

