-- ==== Sys2Proof/Machine/Assembler.lean ====
section
/-! DEFINITION. The assembler of host programs: statements and pseudo-instructions, and the bus turns they stand for
(30_encoding.md R104 to R109, 45_control.md R265). -/

namespace Sys2Proof.Machine

/-- What a host program does on the bus: a write, a read, or WAIT's polling loop (30_encoding.md R105, R107). -/
inductive HostOp where
  | write (offset value : Nat)
  | read (offset : Nat)
  | wait
  deriving DecidableEq, Repr

/-- A statement (30_encoding.md R105) or pseudo-instruction (R106 to R109). A register is given by its offset, a buffer
by its selector (R104). -/
inductive Statement where
  | wr (offset value : Nat)
  | rd (offset : Nat)
  | command (i : Instr)
  | wait
  | encode (ver ecl : Nat)
  | putb (sel idx : Nat) (bytes : List Nat)
  | getb (sel idx n : Nat)
  | rsenc (n : Nat) (bytes : List Nat)
  | clrst
  | srst
  deriving DecidableEq, Repr

/-- A checked write: an operand too wide for its field is an assembly error, never truncated (30_encoding.md R105). -/
def writeOp? (r : Csr) (width value : Nat) : Option HostOp :=
  if value < 2 ^ width then some (.write r.offset.toNat value) else none

/-- The write a command stands for, when its operands fit (30_encoding.md R105). -/
def commandOp? (i : Instr) : Option HostOp :=
  if i.wf then some (.write Csr.cmd.offset.toNat (encode i).toNat) else none

/-- Commands each followed by WAIT (30_encoding.md R106). -/
def commandsWaiting? : List Instr → Option (List HostOp)
  | [] => some []
  | i :: rest =>
    match commandOp? i, commandsWaiting? rest with
    | some op, some ops => some (op :: .wait :: ops)
    | _, _ => none

/-- `BUF_SEL` and `BUF_ADDR` set for a transfer (30_encoding.md R108); a reserved selector is let through (log entry 22,
DESIGN CHOICE). -/
def selectOps? (sel idx : Nat) : Option (List HostOp) :=
  match writeOp? .bufSel 4 sel, writeOp? .bufAddr 16 idx with
  | some a, some b => some [a, b]
  | _, _ => none

/-- `PUTB buf, idx, b0, b1, …` (30_encoding.md R108); an empty list of bytes only sets the selector and the address (log
entry 20, DESIGN CHOICE). -/
def putbOps? (sel idx : Nat) (bytes : List Nat) : Option (List HostOp) :=
  match selectOps? sel idx, bytes.mapM fun v => writeOp? .bufData 8 v with
  | some a, some b => some (a ++ b)
  | _, _ => none

/-- `GETB buf, idx, n` (30_encoding.md R108). -/
def getbOps? (sel idx n : Nat) : Option (List HostOp) :=
  match selectOps? sel idx with
  | some a => some (a ++ List.replicate n (.read Csr.bufData.offset.toNat))
  | none => none

/-- The host operations a statement stands for; none when an operand does not fit its field (30_encoding.md R105 to
R109). -/
def Statement.expand? : Statement → Option (List HostOp)
  | .wr offset value => if offset < 256 ∧ value < 2 ^ 32 then some [.write offset value] else none
  | .rd offset => if offset < 256 then some [.read offset] else none
  | .command i =>
    match commandOp? i with
    | some op => some [op]
    | none => none
  | .wait => some [.wait]
  | .encode ver ecl => commandsWaiting? [.qrBegin ver ecl, .qrAsm, .qrBuild, .qrEval, .qrFinal]
  | .putb sel idx bytes => putbOps? sel idx bytes
  | .getb sel idx n => getbOps? sel idx n
  | .rsenc n bytes =>
    match putbOps? (Buf.sel .rsin) 0 bytes, commandsWaiting? [.rsDiv n bytes.length], getbOps? (Buf.sel .rsout) 0 n with
    | some a, some b, some c => some (a ++ b ++ c)
    | _, _, _ => none
  | .clrst => some [.write Csr.status.offset.toNat 0x0000000E]
  | .srst => some [.write Csr.ctrl.offset.toNat 1]

/-- The 32-bit bus turn that reads the register at an offset. -/
def readTurn (offset : Nat) : Turn :=
  .host { kind := .read, width := 32, offset := BitVec.ofNat 8 offset, data := 0 }

/-- The 32-bit bus turn that writes the register at an offset. -/
def writeTurn (offset value : Nat) : Turn :=
  .host { kind := .write, width := 32, offset := BitVec.ofNat 8 offset, data := BitVec.ofNat 32 value }

/-- WAIT with `busy` polls that find BUSY = 1, then the completion, then the poll that finds BUSY = 0. The number of
polls depends on LAT(op) and is fixed by no rule (30_encoding.md R107); log entry 16. -/
def waitTurns (busy : Nat) : List Turn :=
  List.replicate busy (readTurn Csr.status.offset.toNat) ++ [.core, readTurn Csr.status.offset.toNat]

/-- The turns of host operations; `polls` gives, WAIT by WAIT, how many polls find BUSY = 1. -/
def hostTurns : List Nat → List HostOp → List Turn
  | _, [] => []
  | polls, .write offset value :: rest => writeTurn offset value :: hostTurns polls rest
  | polls, .read offset :: rest => readTurn offset :: hostTurns polls rest
  | polls, .wait :: rest => waitTurns (polls.headD 0) ++ hostTurns (polls.drop 1) rest

/-- A program's host operations; none when a statement does not assemble (30_encoding.md R105). -/
def expandProgram? (program : List Statement) : Option (List HostOp) :=
  match program.mapM Statement.expand? with
  | some ops => some ops.flatten
  | none => none

/-- A program's turns on the one total order, for a schedule of polls (20_memory.md R86, 30_encoding.md R107). -/
def programTurns? (polls : List Nat) (program : List Statement) : Option (List Turn) :=
  match expandProgram? program with
  | some ops => some (hostTurns polls ops)
  | none => none

end Sys2Proof.Machine
end

