-- ==== Sys2Proof/Machine/AsmText.lean ====
section
/-! DEFINITION. The text form of assembler statements (30_encoding.md R104): one line is
`[label:] mnemonic [operand (, operand)] [; comment]`. The characters a label may hold, and the blanks, are log entry 17. -/

namespace Sys2Proof.Machine

/-- A line of text. -/
abbrev Text := List Char

/-- The text without blanks at its two ends. -/
def trimText (t : Text) : Text :=
  ((t.dropWhile fun c => c = ' ' ∨ c = '\t').reverse.dropWhile fun c => c = ' ' ∨ c = '\t').reverse

/-- The value of a digit in a base, capital and small letters alike. -/
def digitValue? (base : Nat) (c : Char) : Option Nat :=
  let n := c.toNat
  let v :=
    if 48 ≤ n ∧ n ≤ 57 then n - 48
    else if 97 ≤ n ∧ n ≤ 102 then n - 87
    else if 65 ≤ n ∧ n ≤ 70 then n - 55
    else 255
  if v < base then some v else none

/-- The value of a non-empty digit string in a base. -/
def digitsValue? (base : Nat) (t : Text) : Option Nat :=
  match t with
  | [] => none
  | _ =>
    match t.mapM (digitValue? base) with
    | some ds => some (ds.foldl (fun n d => base * n + d) 0)
    | none => none

/-- A number: decimal, hexadecimal with `0x`, or binary with `0b` (30_encoding.md R104). -/
def numberOf? (t : Text) : Option Nat :=
  if t.take 2 = ['0', 'x'] then digitsValue? 16 (t.drop 2)
  else if t.take 2 = ['0', 'b'] then digitsValue? 2 (t.drop 2)
  else digitsValue? 10 t

/-- The value of a name in a table. -/
def named? {α : Type} (table : List (String × α)) (t : Text) : Option α :=
  match table.find? fun entry => entry.1.toList == t with
  | some entry => some entry.2
  | none => none

/-- The EC-level operand of QR.BEGIN and ENCODE: `L`, `M`, `Q`, `H`, or a number (30_encoding.md R104). -/
def levelOf? (t : Text) : Option Nat :=
  match named? [("L", 0), ("M", 1), ("Q", 2), ("H", 3)] t with
  | some e => some e
  | none => numberOf? t

/-- The register names of 10_state.md R23, in the order of `csrLow`. -/
def csrNamesLow : List String :=
  [ "ID", "CTRL", "STATUS", "IRQEN", "CMD", "ERRCODE", "ACCCODE", "BITLEN", "VERSION", "ECLEVEL", "SIDE", "NDATA", "NCW",
    "BLOCKS", "REMBITS", "MASK", "FORMAT", "VERINFO", "GFRES", "ECCOUNT", "BUF_SEL", "BUF_ADDR", "BUF_DATA" ]

/-- The register names of 10_state.md R23, in the order of `csrHigh`. -/
def csrNamesHigh : List String :=
  [ "PEN0", "PEN1", "PEN2", "PEN3", "PEN4", "PEN5", "PEN6", "PEN7", "SELP1", "SELP2", "SELP3", "SELP4", "SELDARK" ]

/-- Every register with its name (10_state.md R23). -/
def csrNames : List (String × Csr) :=
  csrNamesLow.zip csrLow ++ csrNamesHigh.zip csrHigh

/-- A CSR operand: a register name, or a hexadecimal offset (30_encoding.md R104). R104 does not say whether the offset may
be one where no register stands; the model takes any, and the assembler turns every offset below 256 into an access
(log entry 19, DESIGN CHOICE). -/
def csrOperand? (t : Text) : Option Nat :=
  match named? csrNames t with
  | some r => some r.offset.toNat
  | none => if t.take 2 = ['0', 'x'] then digitsValue? 16 (t.drop 2) else none

/-- A buffer operand: a buffer name of 10_state.md R51, or a selector number (30_encoding.md R104). R104 does not say whether
the number may be a reserved selector, 8 to 15, which names no buffer; the model takes any number that fits BUF_SEL
(log entry 22, DESIGN CHOICE). -/
def bufOperand? (t : Text) : Option Nat :=
  match named? [("BITS", 0), ("DATA", 1), ("ECC", 2), ("CW", 3), ("MATRIX", 4), ("RSIN", 5), ("RSOUT", 6), ("GEN", 7)] t with
  | some sel => some sel
  | none => numberOf? t

/-- A byte operand of a GF command: a number that fits its field (30_encoding.md R105). -/
def byteOperand? (t : Text) : Option Byte :=
  match numberOf? t with
  | some n => if n < 256 then some (BitVec.ofNat 8 n) else none
  | none => none

/-- No operand. -/
def operands0? {α : Type} (x : α) : List Text → Option α
  | [] => some x
  | _ => none

/-- One operand. -/
def operands1? {α β : Type} (read : Text → Option α) (f : α → β) : List Text → Option β
  | [a] => (read a).map f
  | _ => none

/-- Two operands. -/
def operands2? {α β γ : Type} (read : Text → Option α) (read' : Text → Option β) (f : α → β → γ) :
    List Text → Option γ
  | [a, b] => (read a).bind fun x => (read' b).map fun y => f x y
  | _ => none

/-- One operand, then any number of numbers, none of them included: PUTB and RSENC may have an empty list of bytes, on
which 30_encoding.md R108 and R109 are silent (log entry 20, DESIGN CHOICE). -/
def operandsMany? {α β : Type} (read : Text → Option α) (f : α → List Nat → β) : List Text → Option β
  | a :: rest => (read a).bind fun x => (rest.mapM numberOf?).map fun ns => f x ns
  | [] => none

/-- PUTB's operands: a buffer, an index, bytes (30_encoding.md R108). -/
def putbOperands? : List Text → Option Statement
  | b :: rest => (bufOperand? b).bind fun sel => operandsMany? numberOf? (fun idx bytes => .putb sel idx bytes) rest
  | [] => none

/-- GETB's operands: a buffer, an index, a count (30_encoding.md R108). -/
def getbOperands? : List Text → Option Statement
  | b :: rest => (bufOperand? b).bind fun sel => operands2? numberOf? numberOf? (fun idx n => .getb sel idx n) rest
  | [] => none

/-- The operands of each statement and pseudo-instruction, by mnemonic (30_encoding.md R105 to R109). -/
def statementTable : List (String × (List Text → Option Statement)) :=
  [ ("NOP", operands0? (.command .nop)),
    ("GF.MUL", operands2? byteOperand? byteOperand? fun a b => .command (.gfMul a b)),
    ("GF.POW", operands2? byteOperand? numberOf? fun a e => .command (.gfPow a e)),
    ("GF.EXP", operands1? byteOperand? fun i => .command (.gfExp i)),
    ("GF.LOG", operands1? byteOperand? fun a => .command (.gfLog a)),
    ("RS.GEN", operands1? numberOf? fun n => .command (.rsGen n)),
    ("RS.DIV", operands2? numberOf? numberOf? fun n len => .command (.rsDiv n len)),
    ("QR.BEGIN", operands2? numberOf? levelOf? fun v e => .command (.qrBegin v e)),
    ("QR.ASM", operands0? (.command .qrAsm)),
    ("QR.BUILD", operands0? (.command .qrBuild)),
    ("QR.EVAL", operands0? (.command .qrEval)),
    ("QR.FINAL", operands0? (.command .qrFinal)),
    ("WR", operands2? csrOperand? numberOf? .wr),
    ("RD", operands1? csrOperand? .rd),
    ("WAIT", operands0? .wait),
    ("ENCODE", operands2? numberOf? levelOf? .encode),
    ("PUTB", putbOperands?),
    ("GETB", getbOperands?),
    ("RSENC", operandsMany? numberOf? .rsenc),
    ("CLRST", operands0? .clrst),
    ("SRST", operands0? .srst) ]

/-- A statement from its mnemonic, case-insensitive, and its operands (30_encoding.md R104). -/
def statementOf? (mnemonic : Text) (operands : List Text) : Option Statement :=
  (named? statementTable (mnemonic.map Char.toUpper)).bind fun read => read operands

/-- A parsed line: its label, if any, and its statement. -/
structure Line where
  label : Option Text
  statement : Statement
  deriving DecidableEq, Repr

/-- The operands of a statement's text, separated by commas. -/
def operandsOf (t : Text) : List Text :=
  if trimText t = [] then [] else (t.splitOn ',').map trimText

/-- The label and the rest of a line without its comment: a label is what stands before a colon. -/
def labelOf (t : Text) : Option Text × Text :=
  match t.dropWhile fun c => c ≠ ':' with
  | [] => (none, t)
  | _ :: rest => (some (trimText (t.takeWhile fun c => c ≠ ':')), rest)

/-- One line of the assembler (30_encoding.md R104). -/
def parseLine? (line : String) : Option Line :=
  let code := line.toList.takeWhile fun c => c ≠ ';'
  let (label, body) := labelOf code
  let body := trimText body
  let mnemonic := body.takeWhile fun c => c ≠ ' ' ∧ c ≠ '\t'
  match statementOf? mnemonic (operandsOf (body.dropWhile fun c => c ≠ ' ' ∧ c ≠ '\t')) with
  | some st => some { label := label, statement := st }
  | none => none

/-- A program text, one statement a line (30_encoding.md R104). -/
def parseProgram? (lines : List String) : Option (List Statement) :=
  match lines.mapM parseLine? with
  | some parsed => some (parsed.map Line.statement)
  | none => none

end Sys2Proof.Machine
end

