-- ==== Sys2Proof/Safety.lean ====
section
/-! DEFINITION. What claims about QRC are stated in: a safe run, the invariants of a reachable state, and the field
mathematics the GF and RS rules refer to. -/

namespace Sys2Proof.Machine

/-! ### Invariants of the state -/

/-- Every buffer is in canonical form and within its capacity (10_state.md R51). -/
def BuffersCanonical (s : State) : Prop :=
  ∀ b : Buf, (s.bufs.get b).wf b.capacity = true

/-- LASTCMD equals the pending word while BUSY = 1 (10_state.md R58). -/
def LatchAgrees (s : State) : Prop :=
  ∀ w, s.latch = some w → s.lastCmd = w

/-- ERRCODE and ACCCODE hold defined codes only, and a set flag has a code behind it: ACCERR only after a rejected
access (60_exceptions.md R281, R290). -/
def CodesDefined (s : State) : Prop :=
  s.errcode.toNat ≤ 9 ∧ s.acccode.toNat ≤ 7 ∧ (s.accErr = true → s.acccode ≠ 0)

/-- The symbol parameters are those of reset, in phase UNSEGMENTED, or in every other phase those of a legal version and
level (42_assemble.md R160, 10_state.md R33 to R39, R63). -/
def ParamsAgree (s : State) : Prop :=
  (s.phase = .unsegmented ∧ s.params = Params.zero) ∨
    (s.phase ≠ .unsegmented ∧ ∃ v e : Nat, 1 ≤ v ∧ v ≤ 40 ∧ e ≤ 3 ∧ s.params = paramsOf v e)

/-- GENV and RSV tell the truth: with GENV set, GEN holds the generator polynomial of degree ECCOUNT, and RSV is set only
with GENV (41_rs.md R145, R146, 10_state.md R52). -/
def GeneratorAgrees (s : State) : Prop :=
  s.eccount.toNat ≤ maxEc ∧ (s.rsv = true → s.genv = true) ∧
    (s.genv = true →
      ∀ k, k ≤ s.eccount.toNat → s.readByte .gen k = (genPoly s.eccount.toNat).getD k 0)

/-- Every byte of a buffer the host can read has been written, but for BITS and RSIN: no command result is a draw
(10_state.md R52, R63). -/
def ResultsWritten (s : State) : Prop :=
  ∀ b : Buf, b ≠ .bits → b ≠ .rsin → s.bufValid b = true →
    ∀ i, i < s.bufExtent b → ((s.bufs.get b).get? i).isSome = true

/-- The format cells, and from version 7 on the version cells (43_matrix.md R198). -/
def infoCells (v side : Nat) : List (Nat × Nat) :=
  formatCells side ++ if 7 ≤ v then versionCells side else []

/-- The cell of MATRIX at row `r`, column `c` (10_state.md R51). -/
def State.matrixCell (r c : Nat) (s : State) : Byte :=
  s.readByte .matrix (r * s.params.side.toNat + c)

/-- A readable MATRIX holds legal cell codes, none UNSET: before QR.FINAL the RSV_UNSET cells are exactly the format and
version cells, after it there is none (10_state.md R54, 43_matrix.md R203, 44_mask.md R244). -/
def CellsLegal (s : State) : Prop :=
  s.phase.hasMatrix = true →
    ∀ r c, r < s.params.side.toNat → c < s.params.side.toNat →
      s.matrixCell r c ∈ [dataCell false, dataCell true, funcCell false, funcCell true, cellReserved] ∧
      (s.matrixCell r c = cellReserved ↔
        s.phase ≠ .finalized ∧ (r, c) ∈ infoCells s.params.version.toNat s.params.side.toNat)

/-- The phases in which MASK, PEN, SELP and SELDARK hold an evaluation (10_state.md R40, R55). -/
def Phase.hasScores : Phase → Bool
  | .scored => true
  | .finalized => true
  | _ => false

/-- The result registers of the evaluation and the finaliser: 0 before QR.EVAL; after it the selected mask is optimal, of
least id among equals, and SELP adds up to its total (44_mask.md R231 to R233); FORMAT and VERINFO are 0 until QR.FINAL
and then the words of the symbol (R240, R242). -/
def ResultsAgree (s : State) : Prop :=
  (s.phase.hasScores = false → s.scores = Scores.zero) ∧
  (s.phase.hasScores = true →
    (∀ k : Fin 8, s.scores.pen[s.scores.mask.toNat] ≤ s.scores.pen[k]) ∧
    (∀ k : Fin 8, k.val < s.scores.mask.toNat → s.scores.pen[s.scores.mask.toNat] < s.scores.pen[k]) ∧
    s.scores.selp[0] + s.scores.selp[1] + s.scores.selp[2] + s.scores.selp[3] =
      s.scores.pen[s.scores.mask.toNat]) ∧
  (s.phase ≠ .finalized → s.format = 0 ∧ s.verinfo = 0) ∧
  (s.phase = .finalized →
    s.format = formatWord s.params.eclevel.toNat s.scores.mask.toNat ∧
    s.verinfo = verinfoOf s.params.version.toNat)

/-- The invariant of every reachable state. -/
structure Inv (s : State) : Prop where
  buffers : BuffersCanonical s
  latch : LatchAgrees s
  codes : CodesDefined s
  params : ParamsAgree s
  generator : GeneratorAgrees s
  written : ResultsWritten s
  cells : CellsLegal s
  results : ResultsAgree s

/-! ### Safe steps -/

/-- A step that answers a next state: it neither faults nor refuses. -/
def StepsOn (s : State) : Prop :=
  ∃ t, step s = .next t

/-! ### What a pending command's result may depend on -/

/-- A run of host transactions, one after another. -/
def hostRun : List Access → State → Result
  | [], s => .next s
  | a :: rest, s =>
    match access a s with
    | .next t => hostRun rest t
    | .fault r => .fault r
    | .refused r => .refused r

/-- The transaction that performs a soft reset: a 32-bit write of CTRL with bit 0 set (70_reset_and_hazards.md R322). -/
def Access.isSoftReset (a : Access) : Bool :=
  a.kind = .write ∧ a.width = 32 ∧ a.offset = Csr.ctrl.offset ∧ a.data.getLsbD 0 = true

/-- The next turn is a reset: the reset input, or the host's soft reset (70_reset_and_hazards.md R320, R322). -/
def State.resetNext (s : State) : Prop :=
  ∃ rest, s.agenda = .hardReset :: rest ∨ ∃ a, a.isSoftReset = true ∧ s.agenda = .host a :: rest

/-- The next turn is the core's: it is first on the agenda, or the agenda is empty (log entries 4, 5). -/
def State.coreNext (s : State) : Prop :=
  s.agenda = [] ∨ ∃ rest, s.agenda = .core :: rest

/-- A state without what the host may still change or be told while a command is pending: DONE, ERR, ACCERR, IRQEN,
ACCCODE and the last read data (20_memory.md R77). -/
def State.commandView (s : State) : State :=
  { s with
    done := false
    err := false
    accErr := false
    irqen := { doneIe := false, errIe := false, accIe := false }
    acccode := 0
    busData := 0 }

/-- A result seen through `State.commandView`. -/
def commandOutcome : Result → Result
  | .next s => .next s.commandView
  | .fault r => .fault r
  | .refused r => .refused r

/-- Every byte of every buffer not in `changed` reads the same in both states. -/
def SameBytesExcept (changed : List Buf) (s t : State) : Prop :=
  ∀ b : Buf, b ∉ changed → ∀ i, t.readByte b i = s.readByte b i

/-! ### The register map as a host reads it -/

/-- The registers at 0x00 to 0x1C: each with its offset and the word a read returns (10_state.md R23, R25 to R50). -/
def registerWordsControl (s : State) : List (Csr × BitVec 8 × Word) :=
  [ (Csr.id, 0x00#8, 0x51524331#32), (.ctrl, 0x04, 0),
    (.status, 0x08, BitVec.ofNat 32 (s.latch.isSome.toNat + 2 * s.done.toNat + 4 * s.err.toNat + 8 * s.accErr.toNat +
      256 * s.phase.code.toNat + 4096 * s.genv.toNat + 8192 * s.rsv.toNat)),
    (.irqen, 0x0C, BitVec.ofNat 32 (2 * s.irqen.doneIe.toNat + 4 * s.irqen.errIe.toNat + 8 * s.irqen.accIe.toNat)),
    (.cmd, 0x10, s.lastCmd), (.errcode, 0x14, s.errcode.setWidth 32), (.acccode, 0x18, s.acccode.setWidth 32),
    (.bitlen, 0x1C, s.bitlen.setWidth 32) ]

/-- The registers at 0x20 to 0x54: each with its offset and the word a read returns (10_state.md R23, R25 to R50). -/
def registerWordsSymbol (s : State) : List (Csr × BitVec 8 × Word) :=
  [ (Csr.version, 0x20, s.params.version.setWidth 32), (.eclevel, 0x24, s.params.eclevel.setWidth 32),
    (.side, 0x28, s.params.side.setWidth 32), (.ndata, 0x2C, s.params.ndata.setWidth 32),
    (.ncw, 0x30, s.params.ncw.setWidth 32),
    (.blocks, 0x34, BitVec.ofNat 32 (s.params.nb.toNat + 256 * s.params.ecb.toNat + 65536 * s.params.nshort.toNat +
      16777216 * s.params.dshort.toNat)),
    (.rembits, 0x38, s.params.rembits.setWidth 32), (.mask, 0x3C, s.scores.mask.setWidth 32),
    (.format, 0x40, s.format.setWidth 32), (.verinfo, 0x44, s.verinfo.setWidth 32),
    (.gfres, 0x48, s.gfres.setWidth 32), (.eccount, 0x4C, s.eccount.setWidth 32),
    (.bufSel, 0x50, s.bufSel.setWidth 32), (.bufAddr, 0x54, s.bufAddr.setWidth 32) ]

/-- The registers at 0x60 to 0x90: each with its offset and the word a read returns (10_state.md R23, R25 to R50). -/
def registerWordsScores (s : State) : List (Csr × BitVec 8 × Word) :=
  [ (Csr.pen 0, 0x60, s.scores.pen[0]), (.pen 1, 0x64, s.scores.pen[1]), (.pen 2, 0x68, s.scores.pen[2]),
    (.pen 3, 0x6C, s.scores.pen[3]), (.pen 4, 0x70, s.scores.pen[4]), (.pen 5, 0x74, s.scores.pen[5]),
    (.pen 6, 0x78, s.scores.pen[6]), (.pen 7, 0x7C, s.scores.pen[7]), (.selp 0, 0x80, s.scores.selp[0]),
    (.selp 1, 0x84, s.scores.selp[1]), (.selp 2, 0x88, s.scores.selp[2]), (.selp 3, 0x8C, s.scores.selp[3]),
    (.seldark, 0x90, s.scores.seldark) ]

/-- Every register but BUF_DATA, with its offset and the word a read returns (10_state.md R23). -/
def registerWords (s : State) : List (Csr × BitVec 8 × Word) :=
  registerWordsControl s ++ registerWordsSymbol s ++ registerWordsScores s

/-! ### Lines of a candidate -/

/-- The line of alternating colours whose runs have the given lengths, starting with `colour` (44_mask.md R225). -/
def lineOfRuns (colour : Bool) : List Nat → List Bool
  | [] => []
  | n :: rest => List.replicate n colour ++ lineOfRuns (!colour) rest

/-- The 2×2 window at (r, c) has one colour (44_mask.md R226). -/
def windowUniform (rows : List (List Bool)) (r c : Nat) : Bool :=
  let at' := fun i j => (rows.getD i []).getD j false
  at' r c == at' r (c + 1) && at' r (c + 1) == at' (r + 1) c && at' (r + 1) c == at' (r + 1) (c + 1)

/-! ### Field mathematics -/

/-- The product of two polynomials over GF(2), by shift and add: bit `i` of `a` adds `b` times x^i (40_gf.md R120,
R123). -/
def polyMul (a b : Nat) : Nat :=
  (List.range 8).foldl (fun acc i => if a.testBit i then acc ^^^ (b <<< i) else acc) 0

/-- The remainder of a polynomial of degree at most 14 modulo x^8+x^4+x^3+x^2+1, which is 0x11D (40_gf.md R120). -/
def polyMod (p : Nat) : Nat :=
  [14, 13, 12, 11, 10, 9, 8].foldl (fun acc i => if acc.testBit i then acc ^^^ (0x11D <<< (i - 8)) else acc) p

/-- The value at `x` of the polynomial whose coefficients, highest degree first, are `cs` (41_rs.md R144). -/
def polyEval (cs : List Byte) (x : Byte) : Byte :=
  cs.foldl (fun acc c => gadd (gmul acc x) c) 0

/-- Two data sequences added place by place (41_rs.md R144). -/
def addBytes (d e : List Byte) : List Byte :=
  List.zipWith gadd d e

end Sys2Proof.Machine
end

