-- ==== Sys2Proof/Certificates/Slice0/Obligations.lean ====
section
/-! DEFINITION. The statements for the provers. Each docstring names the rule it formalises. -/

open Sys2Proof Sys2Proof.Machine

/-! ### Encoding (30_encoding.md) -/

/-- From R101, R105: decoding the word of a well-formed command gives it back, every operand at every value its field
admits. -/
def Obligations.EncodedCommandDecodesBack : Prop :=
  ∀ i : Instr, i.wf = true → decode (encode i) = .ok i

/-- From R101, R105: every word that decodes is the word of the well-formed command it decodes to: each command has one
word. -/
def Obligations.DecodedWordEncodesBack : Prop :=
  ∀ (w : Word) (i : Instr), decode w = .ok i → i.wf = true ∧ encode i = w

/-- From R100: a word encodes a row's command iff `(w & mask) == match`; R101: a word that matches no row does not decode. -/
def Obligations.RowMatchesIffItDecodes : Prop :=
  (∀ (w : Word) (row : OpRow), row ∈ opcodeMap →
    (w &&& row.mask = row.bits ↔ row.bits.byteAt 0 = w.byteAt 0 ∧ decode w = .ok (row.operands w))) ∧
  (∀ w : Word, (∀ row ∈ opcodeMap, w &&& row.mask ≠ row.bits) → ∃ e, decode w = .error e)

/-- R102: the words with an unassigned OPCODE, and the words with a 1 in a reserved-zero bit, are illegal; completing one
reports IllegalCommand, code 1, and changes no other state. -/
def Obligations.IllegalWordChangesNothingElse : Prop :=
  ∀ (w : Word) (s : State) (op : Nat), op = (w.byteAt 0).toNat →
    (0x05 ≤ op ∧ op ≤ 0x0F) ∨ (0x12 ≤ op ∧ op ≤ 0x1F) ∨ 0x25 ≤ op ∨
      (∃ row ∈ opcodeMap, row.bits.byteAt 0 = w.byteAt 0 ∧ w &&& row.mask ≠ row.bits) →
    complete w s = .next { s with errcode := 1, done := true, err := true, latch := none }

/-- R110: the worked encodings, and the two words that do not decode. -/
def Obligations.WorkedEncodingsAgree : Prop :=
  ([ (Instr.gfMul 0x53 0xCA, 0x00CA5301#32), (.gfPow 2 255, 0x00FF0202#32), (.gfExp 8, 0x00000803#32),
     (.gfLog 0x1D, 0x00001D04#32), (.rsGen 7, 0x00000710#32), (.rsDiv 10 16, 0x00100A11#32),
     (.rsDiv 30 256, 0x01001E11#32), (.qrBegin 1 2, 0x00020120#32), (.qrBegin 40 3, 0x00032820#32),
     (.qrAsm, 0x00000021#32) ].all fun x => encode x.1 = x.2 ∧ decode x.2 = .ok x.1) = true ∧
  decode 0x01CA5301 = .error .reservedBit ∧ decode 0x00000025 = .error .unassignedOpcode

/-! ### Steps (45_control.md) -/

/-- From R262: a step of the core on a pending word that decodes to `i` is exec of `i`. The model's own part (log entries 4
and 5): the core steps when it is next on the agenda, or when the agenda is empty. -/
def Obligations.StepRunsThePendingCommand : Prop :=
  ∀ (s : State) (w : Word) (i : Instr), s.latch = some w → decode w = .ok i →
    (s.agenda = [] → step s = exec i s) ∧
    (∀ rest, s.agenda = .core :: rest → step s = exec i { s with agenda := rest })

/-- From R29, R261, R262, R320 and log entries 4, 5: one step is one host transaction, one completion, or one hard reset; a core
turn with no pending command, and an empty agenda, change nothing else. A step of the core with any word pending, whether
it decodes or not, completes that word. A host write of any word to CMD while BUSY = 0 issues it, without decoding, and
the core's next turn completes it: executes the command, where the word is a command's. -/
def Obligations.StepTakesOneTurn : Prop :=
  ∀ (s : State) (rest : List Turn),
    (∀ a, s.agenda = .host a :: rest → step s = access a { s with agenda := rest }) ∧
    (s.agenda = .core :: rest → s.latch = none → step s = .next { s with agenda := rest }) ∧
    (s.agenda = .hardReset :: rest → step s = .next (hardReset { s with agenda := rest })) ∧
    (s.agenda = [] → s.latch = none → step s = .next s) ∧
    (∀ w, s.latch = some w → s.agenda = [] → step s = complete w s) ∧
    (∀ w, s.latch = some w → s.agenda = .core :: rest → step s = complete w { s with agenda := rest }) ∧
    (∀ w : Word, s.latch = none →
      s.agenda = .host { kind := .write, width := 32, offset := 0x10, data := w } :: .core :: rest →
      ∃ t, step s = .next t ∧ t = { s with lastCmd := w, latch := some w, agenda := .core :: rest } ∧
        step t = complete w { t with agenda := rest }) ∧
    (∀ i : Instr, i.wf = true → s.latch = none → s.agenda = writeTurn 0x10 (encode i).toNat :: .core :: rest →
      ∃ t, step s = .next t ∧ t = { s with lastCmd := encode i, latch := some (encode i), agenda := .core :: rest } ∧
        step t = exec i { t with agenda := rest })

/-- From R77, R263: while a command is pending, no run of host transactions without a soft reset stops the machine, and
what the command brings about does not depend on them: the pending word is kept, and the result is the same, but for the
flags and codes the host may change meanwhile and the data it reads. -/
def Obligations.PendingCommandIgnoresTheHost : Prop :=
  ∀ (as : List Access) (s : State), s.busy = true → (∀ a ∈ as, a.isSoftReset = false) →
    ∃ t, hostRun as s = .next t ∧ t.latch = s.latch ∧ commandOutcome (coreTurn t) = commandOutcome (coreTurn s)

/-- From R262, R83: a completed command clears BUSY and sets DONE; ERR is set when ERRCODE is not 0 and never cleared; a failed
command changes nothing but ERRCODE, DONE, ERR and BUSY, and PHASE for CapacityMismatch only. -/
def Obligations.CompletionReportsAllOrNothing : Prop :=
  ∀ (w : Word) (s t : State), complete w s = .next t →
    t.latch = none ∧ t.done = true ∧ (t.err = true ↔ s.err = true ∨ t.errcode ≠ 0) ∧
    (t.errcode ≠ 0 →
      t = { s with
        errcode := t.errcode
        done := true
        err := true
        latch := none
        phase := if t.errcode = 5 then .fault else s.phase })

/-! ### NOP and the GF unit (45_control.md R260, 40_gf.md) -/

/-- R260: NOP, in every phase, only reports its completion; with a reserved bit set its word is illegal. -/
def Obligations.NopOnlyReportsCompletion : Prop :=
  ∀ s : State,
    exec .nop s = .next { s with errcode := 0, done := true, latch := none } ∧
    complete 0x00000000 s = .next { s with errcode := 0, done := true, latch := none } ∧
    (∀ w : Word, w.byteAt 0 = 0x00 → w.field 31 8 ≠ 0 →
      complete w s = .next { s with errcode := 1, done := true, err := true, latch := none })

/-- R125: GF.MUL writes the product of its operands to GFRES and nothing else but the completion report; bits 31:24 must
be 0. -/
def Obligations.GfMulWritesTheProduct : Prop :=
  ∀ s : State,
    (∀ a b : Byte, exec (.gfMul a b) s = .next { s with gfres := gmul a b, errcode := 0, done := true, latch := none }) ∧
    (∀ w : Word, w.byteAt 0 = 0x01 →
      (w.byteAt 24 = 0 → complete w s = exec (.gfMul (w.byteAt 8) (w.byteAt 16)) s) ∧
      (w.byteAt 24 ≠ 0 → complete w s = .next { s with errcode := 1, done := true, err := true, latch := none })) ∧
    (∀ a b : Byte, gmul 0 b = 0 ∧ gmul a 0 = 0 ∧ gmul 1 b = b ∧ gmul a b = gmul b a) ∧
    gmul 0x80 0x02 = 0x1D ∧ gmul 0xFF 0xFF = 0xE2 ∧ gmul 0x53 0xCA = 0x8F

/-- R126: GF.POW writes the power to GFRES and nothing else but the completion report; every word with OPCODE 0x02 is
legal. -/
def Obligations.GfPowWritesThePower : Prop :=
  ∀ s : State,
    (∀ (a : Byte) (e : Nat), exec (.gfPow a e) s =
      .next { s with gfres := gpow a e, errcode := 0, done := true, latch := none }) ∧
    (∀ w : Word, w.byteAt 0 = 0x02 → complete w s = exec (.gfPow (w.byteAt 8) (w.field 31 16)) s) ∧
    (∀ a : Byte, gpow a 0 = 1) ∧ (∀ e, 0 < e → gpow 0 e = 0) ∧ (∀ (a : Byte) (k : Nat), a ≠ 0 → gpow a (255 * k) = 1) ∧
    gpow 0x02 65535 = 1 ∧ gpow 0x1D 3 = 0x8F

/-- R127: GF.EXP writes the antilog table's entry to GFRES and nothing else but the completion report; bits 31:16 must
be 0. -/
def Obligations.GfExpReadsTheAntilogTable : Prop :=
  ∀ s : State,
    (∀ i : Byte, exec (.gfExp i) s = .next { s with gfres := gfExp i.toNat, errcode := 0, done := true, latch := none }) ∧
    (∀ w : Word, w.byteAt 0 = 0x03 →
      (w.field 31 16 = 0 → complete w s = exec (.gfExp (w.byteAt 8)) s) ∧
      (w.field 31 16 ≠ 0 → complete w s = .next { s with errcode := 1, done := true, err := true, latch := none })) ∧
    gfExp 255 = 0x01 ∧ gfExp 0 = 0x01 ∧ gfExp 8 = 0x1D

/-- R128: GF.LOG writes the logarithm of a non-zero operand to GFRES; for 0 it fails with LogOfZero, code 9, and GFRES
is unchanged. -/
def Obligations.GfLogReadsTheLogTable : Prop :=
  ∀ s : State,
    (∀ a : Byte, a ≠ 0 → ∃ x : Nat, x ≤ 254 ∧ gfExp x = a ∧
      exec (.gfLog a) s = .next { s with gfres := BitVec.ofNat 8 x, errcode := 0, done := true, latch := none }) ∧
    exec (.gfLog 0) s = .next { s with errcode := 9, done := true, err := true, latch := none } ∧
    (∀ w : Word, w.byteAt 0 = 0x04 →
      (w.field 31 16 = 0 → complete w s = exec (.gfLog (w.byteAt 8)) s) ∧
      (w.field 31 16 ≠ 0 → complete w s = .next { s with errcode := 1, done := true, err := true, latch := none })) ∧
    gfLog? 1 = some 0 ∧ gfLog? 2 = some 1 ∧ gfLog? 0xFF = some 175 ∧ gfLog? 0x1D = some 8

/-- R122: the ROM tables are the powers of the element 0x02 and their logarithms. -/
def Obligations.TablesArePowersOfAlpha : Prop :=
  gfExp 0 = 0x01 ∧
  (∀ i, i < 254 → (gfExp (i + 1)).toNat =
    ((gfExp i).toNat <<< 1) ^^^ (if (gfExp i).getLsbD 7 then 0x11D else 0)) ∧
  gfExp 255 = 0x01 ∧
  (∀ a : Byte, a ≠ 0 → ∃ i, gfLog? a = some i ∧ i ≤ 254 ∧ gfExp i = a ∧ ∀ j, j ≤ 254 → gfExp j = a → j = i) ∧
  gfLog? 0 = none

/-- R123: multiplication by a zero is zero, other products go through the tables, and the product is the carry-less
product of the polynomials reduced modulo 0x11D, for all 65536 pairs. -/
def Obligations.ProductIsCarrylessModulo11D : Prop :=
  ∀ a b : Byte,
    (a = 0 ∨ b = 0 → gmul a b = 0) ∧
    (∀ x y, gfLog? a = some x → gfLog? b = some y → gmul a b = gfExp ((x + y) % 255)) ∧
    (gmul a b).toNat = polyMod (polyMul a.toNat b.toNat)

/-- R129: the field laws of gadd, gmul and gpow, with the inverse of a non-zero element. -/
def Obligations.FieldLawsHold : Prop :=
  (∀ a b c : Byte, gadd (gadd a b) c = gadd a (gadd b c) ∧ gadd a b = gadd b a ∧ gadd a 0 = a ∧ gadd a a = 0) ∧
  (∀ a b c : Byte, gmul (gmul a b) c = gmul a (gmul b c) ∧ gmul a b = gmul b a ∧ gmul a 1 = a ∧ gmul a 0 = 0) ∧
  (∀ a b c : Byte, gmul a (gadd b c) = gadd (gmul a b) (gmul a c)) ∧
  (∀ a : Byte, a ≠ 0 → gmul a (gpow a 254) = 1) ∧
  (∀ (a : Byte) (x : Nat), gfLog? a = some x → gpow a 254 = gfExp ((255 - x) % 255)) ∧
  (∀ (a : Byte) (e f : Nat), gpow a (e + f) = gmul (gpow a e) (gpow a f))

/-! ### The RS unit (41_rs.md) -/

/-- From R145: RS.GEN loads the generator polynomial into GEN, writes ECCOUNT, sets GENV and clears RSV; no other register
and no other byte of any buffer changes; N > 30 fails with InvalidEcCount, code 7, and changes none of them. That the bytes
of GEN above index N keep what they held is the model's reading (log entry 10, DEDUCED). -/
def Obligations.RsGenLoadsTheGenerator : Prop :=
  ∀ (n : Nat) (s : State),
    (n ≤ 30 → ∃ t, exec (.rsGen n) s = .next t ∧
      t = { s with bufs := t.bufs, eccount := BitVec.ofNat 8 n, genv := true, rsv := false, errcode := 0, done := true,
                   latch := none } ∧
      (∀ k, k ≤ n → t.readByte .gen k = (genPoly n).getD k 0) ∧
      (∀ k, n < k → t.readByte .gen k = s.readByte .gen k) ∧
      SameBytesExcept [.gen] s t) ∧
    (30 < n → exec (.rsGen n) s = .next { s with errcode := 7, done := true, err := true, latch := none }) ∧
    (∀ w : Word, w.byteAt 0 = 0x10 →
      (w.field 31 16 = 0 → complete w s = exec (.rsGen (w.field 15 8)) s) ∧
      (w.field 31 16 ≠ 0 → complete w s = .next { s with errcode := 1, done := true, err := true, latch := none })) ∧
    genPoly 0 = [1] ∧ genPoly 1 = [1, 1] ∧ genPoly 2 = [1, 3, 2] ∧
    genPoly 10 = [0x01, 0xD8, 0xC2, 0x9F, 0x6F, 0xC7, 0x5E, 0x5F, 0x71, 0x9D, 0xC1]

/-- From R146: RS.DIV divides the LEN bytes of RSIN, writes the remainder to RSOUT and the generator to GEN, writes ECCOUNT and
sets GENV and RSV; no other register and no other byte of any buffer changes. N > 30 fails first, with InvalidEcCount;
then LEN = 0 or LEN > 256 with InvalidLength, code 8. That the bytes of RSOUT from index N on and of GEN above index N keep
what they held is the model's reading (log entry 10, DEDUCED). -/
def Obligations.RsDivWritesTheRemainder : Prop :=
  ∀ (n len : Nat) (s : State),
    (n ≤ 30 → 1 ≤ len → len ≤ 256 → ∃ t, exec (.rsDiv n len) s = .next t ∧
      t = { s with bufs := t.bufs, eccount := BitVec.ofNat 8 n, genv := true, rsv := true, errcode := 0, done := true,
                   latch := none } ∧
      (∀ k, k < n → t.readByte .rsout k =
        (rsRem ((List.range len).map fun j => s.readByte .rsin j) n).getD k 0) ∧
      (∀ k, n ≤ k → t.readByte .rsout k = s.readByte .rsout k) ∧
      (∀ k, k ≤ n → t.readByte .gen k = (genPoly n).getD k 0) ∧
      (∀ k, n < k → t.readByte .gen k = s.readByte .gen k) ∧
      SameBytesExcept [.rsout, .gen] s t) ∧
    (30 < n → exec (.rsDiv n len) s = .next { s with errcode := 7, done := true, err := true, latch := none }) ∧
    (n ≤ 30 → len = 0 ∨ 256 < len →
      exec (.rsDiv n len) s = .next { s with errcode := 8, done := true, err := true, latch := none }) ∧
    (∀ w : Word, w.byteAt 0 = 0x11 →
      (w.field 31 25 = 0 → complete w s = exec (.rsDiv (w.field 15 8) (w.field 24 16)) s) ∧
      (w.field 31 25 ≠ 0 → complete w s = .next { s with errcode := 1, done := true, err := true, latch := none }))

/-- From R141: G_n has n + 1 coefficients, is monic, and vanishes at α^0, …, α^(n−1). -/
def Obligations.GeneratorIsMonicWithItsRoots : Prop :=
  ∀ n, n ≤ 30 →
    (genPoly n).length = n + 1 ∧ (genPoly n).getD 0 0 = 1 ∧ ∀ i, i < n → polyEval (genPoly n) (gfExp i) = 0

/-- R144: the data bytes followed by the remainder vanish at α^0, …, α^(n−1); the remainder is linear, zero on zero data,
and blind to leading zero bytes. -/
def Obligations.RemainderHasItsProperties : Prop :=
  ∀ n, n ≤ 30 →
    (∀ (d : List Byte) (i : Nat), i < n → (rsRem d n).length = n ∧ polyEval (d ++ rsRem d n) (gfExp i) = 0) ∧
    (∀ d e : List Byte, d.length = e.length → rsRem (addBytes d e) n = addBytes (rsRem d n) (rsRem e n)) ∧
    (∀ len, rsRem (List.replicate len 0) n = List.replicate n 0) ∧
    (∀ (k : Nat) (d : List Byte), rsRem (List.replicate k 0 ++ d) n = rsRem d n)

/-! ### Symbol set-up and the assembler (42_assemble.md) -/

/-- R160: QR.BEGIN sets the symbol parameters, as the registers read back, clears the results of the previous symbol and
enters SEGMENTED, and changes nothing else but the completion report; VER outside 1–40 fails first, with InvalidVersion,
then ECL > 3 with InvalidEcLevel, and a failure changes nothing. -/
def Obligations.QrBeginSetsTheParameters : Prop :=
  ∀ (v e : Nat) (s : State),
    (1 ≤ v → v ≤ 40 → e ≤ 3 → ∃ t, exec (.qrBegin v e) s = .next t ∧
      t = { s with params := t.params, scores := t.scores, format := 0, verinfo := 0, phase := .segmented, errcode := 0,
                   done := true, latch := none } ∧
      (readCsr .version t).toNat = v ∧ (readCsr .eclevel t).toNat = e ∧ (readCsr .side t).toNat = 17 + 4 * v ∧
      (readCsr .ndata t).toNat = ndataOf v e ∧ (readCsr .ncw t).toNat = ncwOf v ∧
      (readCsr .blocks t).toNat =
        nbOf v e + 256 * ecbOf v e + 65536 * nshortOf v e + 16777216 * dshortOf v e ∧
      (readCsr .rembits t).toNat = remOf v ∧
      readCsr .mask t = 0 ∧ (∀ k, readCsr (.pen k) t = 0) ∧ (∀ j, readCsr (.selp j) t = 0) ∧
      readCsr .seldark t = 0) ∧
    (v < 1 ∨ 40 < v → exec (.qrBegin v e) s = .next { s with errcode := 2, done := true, err := true, latch := none }) ∧
    (1 ≤ v → v ≤ 40 → 3 < e →
      exec (.qrBegin v e) s = .next { s with errcode := 3, done := true, err := true, latch := none }) ∧
    (∀ w : Word, w.byteAt 0 = 0x20 →
      (w.field 15 14 = 0 → w.field 31 19 = 0 → complete w s = exec (.qrBegin (w.field 13 8) (w.field 18 16)) s) ∧
      (w.field 15 14 ≠ 0 ∨ w.field 31 19 ≠ 0 →
        complete w s = .next { s with errcode := 1, done := true, err := true, latch := none }))

/-- R174: the properties of the parameter tables over all versions and levels. -/
def Obligations.ParameterTablesAreConsistent : Prop :=
  (∀ v, 1 ≤ v → v ≤ 40 →
    ndataOf v 0 ≥ ndataOf v 1 ∧ ndataOf v 1 ≥ ndataOf v 2 ∧ ndataOf v 2 ≥ ndataOf v 3) ∧
  (∀ v e, 1 ≤ v → v ≤ 39 → e ≤ 3 → ndataOf v e < ndataOf (v + 1) e) ∧
  (∀ v e, 1 ≤ v → v ≤ 40 → e ≤ 3 →
    1 ≤ nshortOf v e ∧ nshortOf v e ≤ nbOf v e ∧ 9 ≤ dshortOf v e ∧ dshortOf v e ≤ 122 ∧ 7 ≤ ecbOf v e ∧
    ecbOf v e ≤ 30 ∧ ndataOf v e ≤ 2956 ∧ ncwOf v ≤ 3706 ∧ nbOf v e * ecbOf v e ≤ 2430) ∧
  ndataOf 40 0 = 2956 ∧ ncwOf 40 = 3706 ∧ nbOf 40 3 * ecbOf 40 3 = 2430

/-- R165: PAD keeps the stream, follows it with a terminator of min(4, capacity − length) zero bits and zero bits to the
byte boundary, and fills up with 0xEC and 0x11 in turn, the first pad byte being 0xEC. -/
def Obligations.PaddingFollowsTheRule : Prop :=
  ∀ (stream : List Bool) (ndata : Nat), stream.length ≤ 8 * ndata →
    let data := padStream stream ndata
    let ended := stream.length + min 4 (8 * ndata - stream.length)
    let nbytes := ceilDiv8 ended
    data.length = ndata ∧ nbytes ≤ ndata ∧ (streamOf data).take stream.length = stream ∧
    (∀ t, stream.length ≤ t → t < 8 * nbytes → (streamOf data)[t]? = some false) ∧
    (∀ k, nbytes + k < ndata → data[nbytes + k]? = some (if k % 2 = 0 then 0xEC else 0x11))

/-- From R166, R167, R168: for every version and level, the three buffers have the lengths of the parameters; codeword
i·NB + b of CW is data codeword i of block b, the last data column comes from the long blocks only, and the EC codewords
follow column by column. -/
def Obligations.InterleavingIsColumnwise : Prop :=
  ∀ (v e : Nat) (stream : List Bool), 1 ≤ v → v ≤ 40 → e ≤ 3 → stream.length ≤ 8 * ndataOf v e →
    let out := Sys2Proof.Machine.assemble (paramsOf v e) stream
    let nb := nbOf v e
    let ecb := ecbOf v e
    let short := nshortOf v e
    let dshort := dshortOf v e
    let start := fun b => b * dshort + (b - short)
    out.data = padStream stream (ndataOf v e) ∧
    out.data.length = ndataOf v e ∧ out.ecc.length = nb * ecb ∧ out.cw.length = ncwOf v ∧
    (∀ b, b < nb → (out.ecc.drop (b * ecb)).take ecb =
      rsRem ((out.data.drop (start b)).take (if b < short then dshort else dshort + 1)) ecb) ∧
    (∀ i b, i < dshort → b < nb → out.cw[i * nb + b]? = out.data[start b + i]?) ∧
    (∀ b, short ≤ b → b < nb → out.cw[dshort * nb + (b - short)]? = out.data[start b + dshort]?) ∧
    (∀ i b, i < ecb → b < nb → out.cw[ndataOf v e + i * nb + b]? = out.ecc[b * ecb + i]?)

/-- From R163, R164: with the symbol parameters of a legal version and level, QR.ASM in SEGMENTED assembles the segment
stream into DATA, ECC and CW and enters ASSEMBLED; no other register and no other byte of any buffer changes. With
BITLEN > 8·NDATA it fails with PayloadTooLarge, code 4, and changes nothing else. That the bytes of DATA, ECC and CW past
their extents keep what they held is the model's reading (log entry 10, DEDUCED). -/
def Obligations.QrAsmAssemblesTheCodewords : Prop :=
  (∀ (s : State) (out : Codewords), s.phase = .segmented → ParamsAgree s →
    s.bitlen.toNat ≤ 8 * s.params.ndata.toNat →
    out = Sys2Proof.Machine.assemble s.params
      ((List.range s.bitlen.toNat).map fun i => (s.readByte .bits (i / 8)).getLsbD (7 - i % 8)) →
    ∃ t, exec .qrAsm s = .next t ∧
      t = { s with bufs := t.bufs, phase := .assembled, errcode := 0, done := true, latch := none } ∧
      (∀ i, i < s.params.ndata.toNat → t.readByte .data i = out.data.getD i 0) ∧
      (∀ i, s.params.ndata.toNat ≤ i → t.readByte .data i = s.readByte .data i) ∧
      (∀ i, i < s.params.nb.toNat * s.params.ecb.toNat → t.readByte .ecc i = out.ecc.getD i 0) ∧
      (∀ i, s.params.nb.toNat * s.params.ecb.toNat ≤ i → t.readByte .ecc i = s.readByte .ecc i) ∧
      (∀ i, i < s.params.ncw.toNat → t.readByte .cw i = out.cw.getD i 0) ∧
      (∀ i, s.params.ncw.toNat ≤ i → t.readByte .cw i = s.readByte .cw i) ∧
      SameBytesExcept [.data, .ecc, .cw] s t) ∧
  (∀ s : State, s.phase = .segmented → 8 * s.params.ndata.toNat < s.bitlen.toNat →
    exec .qrAsm s = .next { s with errcode := 4, done := true, err := true, latch := none })

/-! ### Phases (10_state.md R56, R57) -/

/-- From R56: only these commands change PHASE, from the phase they require; in any other phase a pipeline command fails with
SequenceError, code 6, and changes nothing else. A step changes PHASE only when it is a reset, which leaves UNSEGMENTED, or
the completion of a word that decodes to one of these commands: no other host transaction, no illegal word and no idle turn
changes it (the turns: log entries 4, 5). -/
def Obligations.PhaseChangesFollowTheTable : Prop :=
  (∀ (i : Instr) (s t : State), exec i s = .next t →
    t.phase = s.phase ∨
    ((∃ v e, i = .qrBegin v e) ∧ t.phase = .segmented ∧ t.errcode = 0) ∨
    (i = .qrAsm ∧ s.phase = .segmented ∧ t.phase = .assembled ∧ t.errcode = 0) ∨
    (i = .qrBuild ∧ s.phase = .assembled ∧ t.phase = .matrixBuilt ∧ t.errcode = 0) ∨
    (i = .qrBuild ∧ s.phase = .assembled ∧ t.phase = .fault ∧ t.errcode = 5) ∨
    (i = .qrEval ∧ s.phase = .matrixBuilt ∧ t.phase = .scored ∧ t.errcode = 0) ∨
    (i = .qrFinal ∧ s.phase = .scored ∧ t.phase = .finalized ∧ t.errcode = 0)) ∧
  (∀ (i : Instr) (s t : State), exec i s = .next t → t.errcode = 0 →
    ((∃ v e, i = .qrBegin v e) → t.phase = .segmented) ∧ (i = .qrAsm → t.phase = .assembled) ∧
    (i = .qrBuild → t.phase = .matrixBuilt) ∧ (i = .qrEval → t.phase = .scored) ∧
    (i = .qrFinal → t.phase = .finalized)) ∧
  (∀ (i : Instr) (need : Phase) (s : State),
    (i, need) ∈ [(Instr.qrAsm, Phase.segmented), (.qrBuild, .assembled), (.qrEval, .matrixBuilt), (.qrFinal, .scored)] →
    s.phase ≠ need →
    exec i s = .next { s with errcode := 6, done := true, err := true, latch := none }) ∧
  (∀ s t : State, step s = .next t →
    t.phase = s.phase ∨ (s.resetNext ∧ t.phase = .unsegmented) ∨
    (s.coreNext ∧ ∃ w i, s.latch = some w ∧ decode w = .ok i ∧
      ((∃ v e, i = .qrBegin v e) ∨ i ∈ [.qrAsm, .qrBuild, .qrEval, .qrFinal]) ∧
      exec i { s with agenda := s.agenda.tail } = .next t)) ∧
  (∀ s t : State, s.resetNext → step s = .next t → t.phase = .unsegmented)

/-- R57: while PHASE is FINALIZED, no step changes MATRIX, VERSION, ECLEVEL, SIDE, MASK, FORMAT or VERINFO, but the
completion of a QR.BEGIN and a reset, the only steps that leave FINALIZED; the other pipeline commands fail with
SequenceError there. -/
def Obligations.FinalizedSymbolIsImmutable : Prop :=
  (∀ s t : State, s.phase = .finalized → step s = .next t →
    (t.phase = .finalized ∧ t.params = s.params ∧ t.scores = s.scores ∧ t.format = s.format ∧ t.verinfo = s.verinfo ∧
      ∀ i, t.readByte .matrix i = s.readByte .matrix i) ∨
    (t.phase = .segmented ∧ s.coreNext ∧ ∃ w v e, s.latch = some w ∧ decode w = .ok (.qrBegin v e) ∧
      exec (.qrBegin v e) { s with agenda := s.agenda.tail } = .next t) ∨
    (t.phase = .unsegmented ∧ s.resetNext ∧ t.latch = none ∧ t.params = Params.zero)) ∧
  (∀ (i : Instr) (s : State), s.phase = .finalized → i ∈ [.qrAsm, .qrBuild, .qrEval, .qrFinal] →
    exec i s = .next { s with errcode := 6, done := true, err := true, latch := none })

/-! ### The matrix builder (43_matrix.md) -/

/-- From R193 to R198: what the function patterns put at each module, for all forty versions. A module at distance at most
4 from a finder centre is light at distances 2 and 4 and dark otherwise; row 6 and column 6 alternate between the finders;
a module at distance at most 2 from an alignment centre is light at distance 1 and dark otherwise; the dark module is
dark; the format and version cells are RSV_UNSET; every other module is UNSET. -/
def Obligations.FunctionPatternsStandWhereStated : Prop :=
  ∀ (v s r c : Nat) (cell : Byte) (centres : List Nat) (finders aligns : List (Nat × Nat)), 1 ≤ v → v ≤ 40 → s = sideOf v →
    r < s → c < s → cell = (functionMatrix v s).cell r c → centres = alignCentres v →
    finders = [(3, 3), (3, s - 4), (s - 4, 3)] →
    aligns = (centres.flatMap fun a => centres.map fun b => (a, b)).filter (fun p =>
      p ∉ [(6, 6), (6, s - 7), (s - 7, 6)]) →
    (∀ p ∈ finders, chebyshev p.1 p.2 r c ≤ 4 → cell = funcCell (chebyshev p.1 p.2 r c ∉ [2, 4])) ∧
    (r = 6 → 8 ≤ c → c ≤ s - 9 → cell = funcCell (c % 2 = 0)) ∧
    (c = 6 → 8 ≤ r → r ≤ s - 9 → cell = funcCell (r % 2 = 0)) ∧
    (∀ p ∈ aligns, chebyshev p.1 p.2 r c ≤ 2 → cell = funcCell (chebyshev p.1 p.2 r c ≠ 1)) ∧
    (r = s - 8 → c = 8 → cell = funcCell true) ∧
    ((r, c) ∈ infoCells v s ↔ cell = cellReserved) ∧
    (cell = cellUnset ↔
      (∀ p ∈ finders, 4 < chebyshev p.1 p.2 r c) ∧ (∀ p ∈ aligns, 2 < chebyshev p.1 p.2 r c) ∧ r ≠ 6 ∧ c ≠ 6 ∧
        ¬ (r = s - 8 ∧ c = 8) ∧ (r, c) ∉ infoCells v s)

/-- R199: after the function patterns are placed, the UNSET modules number RAWMOD(V) = 8·NCW(V) + REM(V) with REM(V) in
{0, 3, 4, 7}, which is what the reserved modules leave of the symbol, for all forty versions. -/
def Obligations.ModuleCountEqualsTheClosedForm : Prop :=
  ∀ (v s a : Nat), 1 ≤ v → v ≤ 40 → s = sideOf v → a = (alignCentres v).length →
    (functionMatrix v s).unsetCount = rawModules v ∧ rawModules v = 8 * ncwOf v + remOf v ∧ remOf v ∈ [0, 3, 4, 7] ∧
    (2 ≤ v → a = v / 7 + 2) ∧
    rawModules v + (192 + 2 * (s - 16) + (if 2 ≤ v then 25 * (a * a - 3) - 10 * (a - 2) else 0) + 31 +
      (if 7 ≤ v then 36 else 0)) = s * s

/-- From R200: for every symbol side, the sequencer visits every module outside column 6 exactly once, and no module of column
6; and its order: the column pairs from the right, column 6 skipped, the first pair upward and each next one the other way,
and in each row of a pair the right column first. -/
def Obligations.ZigzagVisitsEachModuleOnce : Prop :=
  ∀ v s : Nat, 1 ≤ v → v ≤ 40 → s = sideOf v →
    (zigzag s).Nodup ∧ (zigzag s).length = s * (s - 1) ∧
    (∀ r c, (r, c) ∈ zigzag s ↔ r < s ∧ c < s ∧ c ≠ 6) ∧
    (∀ pair vert j right : Nat, 2 * pair + 1 < s → vert < s → j < 2 →
      right = (if 6 < s - 1 - 2 * pair then s - 1 - 2 * pair else s - 2 - 2 * pair) →
      (zigzag s)[pair * (2 * s) + (2 * vert + j)]? =
        some (if pair % 2 = 0 then s - 1 - vert else vert, right - j))

/-- From R206: in version 1 the placement starts and ends at these modules. -/
def Obligations.VersionOnePlacementOrder : Prop :=
  let order := (zigzag 21).filter fun p => (functionMatrix 1 21).cell p.1 p.2 = cellUnset;
  order.length = 208 ∧
  order.take 24 =
    [ (20, 20), (20, 19), (19, 20), (19, 19), (18, 20), (18, 19), (17, 20), (17, 19), (16, 20), (16, 19), (15, 20), (15, 19),
      (14, 20), (14, 19), (13, 20), (13, 19), (12, 20), (12, 19), (11, 20), (11, 19), (10, 20), (10, 19), (9, 20),
      (9, 19) ] ∧
  order.drop 200 = [(9, 1), (9, 0), (10, 1), (10, 0), (11, 1), (11, 0), (12, 1), (12, 0)]

/-- R203: in a built matrix no module is UNSET, RAWMOD(V) modules are data modules, the format and version cells are
RSV_UNSET and no other cell is, every function module is as the function patterns put it, whatever the codewords, and every
other module is a data module. -/
def Obligations.BuiltMatrixIsComplete : Prop :=
  ∀ (v : Nat) (cw : List Byte), 1 ≤ v → v ≤ 40 →
    ((buildMatrix v (sideOf v) cw).flatten.countP fun code => code = dataCell false ∨ code = dataCell true) =
      rawModules v ∧
    ∀ (r c : Nat) (cell pattern : Byte), r < sideOf v → c < sideOf v → cell = (buildMatrix v (sideOf v) cw).cell r c →
      pattern = (functionMatrix v (sideOf v)).cell r c →
      cell ≠ cellUnset ∧ (pattern ≠ cellUnset → cell = pattern) ∧
      (pattern = cellUnset → cell = dataCell false ∨ cell = dataCell true) ∧
      (pattern = cellUnset ∨ pattern = cellReserved ∨ pattern = funcCell false ∨ pattern = funcCell true) ∧
      (cell = cellReserved ↔ (r, c) ∈ infoCells v (sideOf v))

/-- From R200, R201: the i-th UNSET module in traversal order takes bit i of the codeword stream, most significant bit first,
and past the last codeword the remainder modules are light. -/
def Obligations.DataBitsFollowTheZigzag : Prop :=
  ∀ (v : Nat) (cw : List Byte) (i r c : Nat), 1 ≤ v → v ≤ 40 →
    ((zigzag (sideOf v)).filter fun p => (functionMatrix v (sideOf v)).cell p.1 p.2 = cellUnset)[i]? = some (r, c) →
    (buildMatrix v (sideOf v) cw).cell r c =
      dataCell (if i / 8 < cw.length then (cw.getD (i / 8) 0).getLsbD (7 - i % 8) else false)

/-- From R190: with the symbol parameters of a legal version and level whose module count passes the capacity check, QR.BUILD
in ASSEMBLED writes the unmasked matrix of CW to MATRIX and enters MATRIX_BUILT; no other register and no other byte of
any buffer changes. That the bytes of MATRIX from SIDE² on keep what they held is the model's reading (log entry 10,
DEDUCED). -/
def Obligations.QrBuildWritesTheMatrix : Prop :=
  ∀ s : State, s.phase = .assembled → ParamsAgree s →
    capacityMatches (functionMatrix s.params.version.toNat s.params.side.toNat).unsetCount s.params.ncw.toNat = true →
    ∃ t, exec .qrBuild s = .next t ∧
      t = { s with bufs := t.bufs, phase := .matrixBuilt, errcode := 0, done := true, latch := none } ∧
      (∀ r c, r < s.params.side.toNat → c < s.params.side.toNat →
        t.matrixCell r c =
          (buildMatrix s.params.version.toNat s.params.side.toNat
            ((List.range s.params.ncw.toNat).map fun i => s.readByte .cw i)).cell r c) ∧
      (∀ i, s.params.side.toNat * s.params.side.toNat ≤ i → t.readByte .matrix i = s.readByte .matrix i) ∧
      SameBytesExcept [.matrix] s t

/-- R202, R285: QR.BUILD in ASSEMBLED whose module count does not satisfy 0 ≤ avail − 8·NCW ≤ 7 sets PHASE to FAULT, reports
code 5 and writes nothing else, whatever VERSION, SIDE and NCW hold; in FAULT no byte of DATA, ECC, CW or MATRIX can be read
and the other pipeline commands fail; only QR.BEGIN and reset leave FAULT; no legal version triggers it. -/
def Obligations.CapacityMismatchEntersFault : Prop :=
  (∀ (s : State) (avail : Nat), s.phase = .assembled →
    avail = (functionMatrix s.params.version.toNat s.params.side.toNat).unsetCount →
    ¬ (8 * s.params.ncw.toNat ≤ avail ∧ avail ≤ 8 * s.params.ncw.toNat + 7) →
    exec .qrBuild s = .next { s with phase := .fault, errcode := 5, done := true, err := true, latch := none }) ∧
  (∀ s : State, s.phase = .fault →
    (∀ b ∈ [Buf.data, .ecc, .cw, .matrix], s.bufValid b = false) ∧
    (∀ i ∈ [Instr.qrAsm, .qrBuild, .qrEval, .qrFinal],
      exec i s = .next { s with errcode := 6, done := true, err := true, latch := none })) ∧
  (∀ s t : State, s.phase = .fault → step s = .next t →
    t.phase = .fault ∨ (t.phase = .unsegmented ∧ s.resetNext) ∨
    (t.phase = .segmented ∧ s.coreNext ∧ ∃ w v e, s.latch = some w ∧ decode w = .ok (.qrBegin v e))) ∧
  (∀ v, 1 ≤ v → v ≤ 40 → capacityMatches (functionMatrix v (sideOf v)).unsetCount (ncwOf v) = true)

/-! ### The mask evaluator and the finaliser (44_mask.md) -/

/-- R220, R221, R222, R243: the eight mask functions and their 6×6 corners; masking flips data modules only, as the mask
function says, and masking twice gives the code back; a reserved module has the same colour in every candidate, which is
dark for FUNC_DARK and light for FUNC_LIGHT and RSV_UNSET. -/
def Obligations.MaskingTouchesDataModulesOnly : Prop :=
  (∀ i j : Nat,
    (maskFlips 0 i j = true ↔ (i + j) % 2 = 0) ∧ (maskFlips 1 i j = true ↔ i % 2 = 0) ∧
    (maskFlips 2 i j = true ↔ j % 3 = 0) ∧ (maskFlips 3 i j = true ↔ (i + j) % 3 = 0) ∧
    (maskFlips 4 i j = true ↔ (i / 2 + j / 3) % 2 = 0) ∧ (maskFlips 5 i j = true ↔ i * j % 2 + i * j % 3 = 0) ∧
    (maskFlips 6 i j = true ↔ (i * j % 2 + i * j % 3) % 2 = 0) ∧
    (maskFlips 7 i j = true ↔ ((i + j) % 2 + i * j % 3) % 2 = 0)) ∧
  ((List.range 6).map fun i => (List.range 8).map fun k =>
      (List.range 6).foldl (fun n j => 2 * n + (maskFlips k i j).toNat) 0) =
    [ [0b101010, 0b111111, 0b100100, 0b100100, 0b111000, 0b111111, 0b111111, 0b101010],
      [0b010101, 0b000000, 0b100100, 0b001001, 0b111000, 0b100000, 0b111000, 0b000111],
      [0b101010, 0b111111, 0b100100, 0b010010, 0b000111, 0b100100, 0b110110, 0b100011],
      [0b010101, 0b000000, 0b100100, 0b100100, 0b000111, 0b101010, 0b101010, 0b010101],
      [0b101010, 0b111111, 0b100100, 0b001001, 0b111000, 0b100100, 0b101101, 0b111000],
      [0b010101, 0b000000, 0b100100, 0b010010, 0b111000, 0b100000, 0b100011, 0b011100] ] ∧
  (∀ (k r c : Nat) (code : Byte),
    maskApply k r c (maskApply k r c code) = code ∧
    (code ≠ dataCell false → code ≠ dataCell true → maskApply k r c code = code) ∧
    (∀ b, maskApply k r c (dataCell b) = dataCell (b ^^ maskFlips k r c))) ∧
  (∀ (m : Matrix) (k r c : Nat), (m.cell r c).getLsbD 2 = true →
    ((candidate k m).getD r []).getD c false = (m.cell r c).getLsbD 0)

/-- R225: rule 1 scores the maximal runs of the rows and of the columns of a candidate: the run lengths of a line are
positive and rebuild the line with alternating colours, and a run of L ≥ 5 adds 3 + (L − 5). -/
def Obligations.RuleOneScoresTheMaximalRuns : Prop :=
  (∀ line : List Bool,
    (∀ n ∈ runLengths line, 0 < n) ∧ lineOfRuns (line.headD false) (runLengths line) = line ∧
    rule1Line line = ((runLengths line).map fun n => if n < 5 then 0 else n - 2).sum) ∧
  (∀ (side : Nat) (rows : List (List Bool)), rows.length = side → (∀ row ∈ rows, row.length = side) →
    (scoreOf side rows).p1 =
      ((List.range side).map fun r => rule1Line (rows.getD r [])).sum +
      ((List.range side).map fun c => rule1Line ((List.range side).map fun r => (rows.getD r []).getD c false)).sum)

/-- R226: rule 2 adds 3 for every overlapping 2×2 window of one colour. -/
def Obligations.RuleTwoCountsOverlappingWindows : Prop :=
  ∀ (side : Nat) (rows : List (List Bool)), rows.length = side → (∀ row ∈ rows, row.length = side) →
    (scoreOf side rows).p2 =
      3 * (((List.range (side - 1)).flatMap fun r => (List.range (side - 1)).map fun c => (r, c)).countP
        fun p => windowUniform rows p.1 p.2)

/-- R227: rule 3 adds 40 for every window of 11 modules that lies wholly in a row or column of a candidate and equals PA or
PB. -/
def Obligations.RuleThreeCountsWindows : Prop :=
  (∀ line : List Bool,
    rule3Line line =
      40 * ((List.range (line.length - 10)).countP fun i =>
        (line.drop i).take 11 = [true, false, true, true, true, false, true, false, false, false, false] ∨
        (line.drop i).take 11 = [false, false, false, false, true, false, true, true, true, false, true])) ∧
  (∀ (side : Nat) (rows : List (List Bool)), rows.length = side → (∀ row ∈ rows, row.length = side) →
    (scoreOf side rows).p3 =
      ((List.range side).map fun r => rule3Line (rows.getD r [])).sum +
      ((List.range side).map fun c => rule3Line ((List.range side).map fun r => (rows.getD r []).getD c false)).sum)

/-- R228: rule 4 is ten times the least k with |20·DK − 10·T| ≤ (k + 1)·T: exact boundaries belong to the inner bucket, and
a dark share from 45% to 55% adds nothing. -/
def Obligations.RuleFourIsTheInnerBucket : Prop :=
  ∀ dk total : Nat, 0 < total → dk ≤ total →
    ∃ k, k ≤ 9 ∧ rule4 dk total = 10 * k ∧ absDiff (20 * dk) (10 * total) ≤ (k + 1) * total ∧
      (0 < k → k * total < absDiff (20 * dk) (10 * total)) ∧
      (k = 0 ↔ 9 * total ≤ 20 * dk ∧ 20 * dk ≤ 11 * total)

/-- R233: the selected mask has the least total, and the least id among equals. -/
def Obligations.SelectionTakesTheLeastTotal : Prop :=
  ∀ totals : List Nat, totals ≠ [] →
    selectMask totals < totals.length ∧
    ∀ k, k < totals.length →
      totals.getD (selectMask totals) 0 ≤ totals.getD k 0 ∧
      (k < selectMask totals → totals.getD (selectMask totals) 0 < totals.getD k 0)

/-- From R230, R231, R232: with a side of at most 177, QR.EVAL in MATRIX_BUILT writes the totals of the eight candidates to
PEN0 to PEN7, the selected id to MASK and its rule scores and dark count to SELP1 to SELP4 and SELDARK, and enters SCORED;
no other register and no byte of any buffer changes. PEN[MASK] is at most every PEN[k], and SELP adds up to it. -/
def Obligations.QrEvalScoresAndSelects : Prop :=
  ∀ (s : State) (side : Nat) (m : Matrix) (score : Nat → Score), s.phase = .matrixBuilt →
    side = s.params.side.toNat → side ≤ 177 →
    m = rowsOf side side ((List.range (side * side)).map fun i => s.readByte .matrix i) →
    score = (fun k => scoreOf side (candidate k m)) →
    ∃ (t : State) (sel : Nat), exec .qrEval s = .next t ∧
      t = { s with scores := t.scores, phase := .scored, errcode := 0, done := true, latch := none } ∧
      (∀ k : Fin 8, (readCsr (.pen k) t).toNat = (score k.val).total) ∧
      sel = (readCsr .mask t).toNat ∧
      (readCsr (.selp 0) t).toNat = (score sel).p1 ∧ (readCsr (.selp 1) t).toNat = (score sel).p2 ∧
      (readCsr (.selp 2) t).toNat = (score sel).p3 ∧ (readCsr (.selp 3) t).toNat = (score sel).p4 ∧
      (readCsr .seldark t).toNat = (score sel).dark ∧
      (∀ k : Fin 8, (score sel).total ≤ (score k.val).total ∧
        (k.val < sel → (score sel).total < (score k.val).total))

/-- R239, R242: all 32 format words, all 34 version words, and 0 for the version word below version 7. -/
def Obligations.InformationWordsAgreeWithTheTables : Prop :=
  ((List.range 4).map fun e => (List.range 8).map fun k => (formatWord e k).toNat) =
    [ [0x77C4, 0x72F3, 0x7DAA, 0x789D, 0x662F, 0x6318, 0x6C41, 0x6976],
      [0x5412, 0x5125, 0x5E7C, 0x5B4B, 0x45F9, 0x40CE, 0x4F97, 0x4AA0],
      [0x355F, 0x3068, 0x3F31, 0x3A06, 0x24B4, 0x2183, 0x2EDA, 0x2BED],
      [0x1689, 0x13BE, 0x1CE7, 0x19D0, 0x0762, 0x0255, 0x0D0C, 0x083B] ] ∧
  ((List.range 34).map fun k => (verinfoOf (7 + k)).toNat) =
    [0x07C94, 0x085BC, 0x09A99, 0x0A4D3, 0x0BBF6, 0x0C762, 0x0D847, 0x0E60D, 0x0F928, 0x10B78, 0x1145D, 0x12A17] ++
    [0x13532, 0x149A6, 0x15683, 0x168C9, 0x177EC, 0x18EC4, 0x191E1, 0x1AFAB, 0x1B08E, 0x1CC1A, 0x1D33F, 0x1ED75] ++
    [0x1F250, 0x209D5, 0x216F0, 0x228BA, 0x2379F, 0x24B0B, 0x2542E, 0x26A64, 0x27541, 0x28C69] ∧
  ∀ v, v < 7 → verinfoOf v = 0

/-- From R238, R240, R242, R244: with the symbol parameters of a legal version and level, QR.FINAL in SCORED writes the format
word to both copies, from version 7 on the version word to both copies, and the selected mask everywhere else, and enters
FINALIZED; no other register and no other byte of any buffer changes. That the bytes of MATRIX from SIDE² on keep what they held is the model's
reading (log entry 10, DEDUCED). -/
def Obligations.QrFinalWritesTheSymbol : Prop :=
  ∀ (s : State) (side v : Nat), s.phase = .scored → ParamsAgree s → side = s.params.side.toNat →
    v = s.params.version.toNat →
    ∃ t, exec .qrFinal s = .next t ∧
      t = { s with bufs := t.bufs, format := t.format, verinfo := t.verinfo, phase := .finalized, errcode := 0,
                   done := true, latch := none } ∧
      t.format = formatWord s.params.eclevel.toNat s.scores.mask.toNat ∧ t.verinfo = verinfoOf v ∧
      (∀ i, i < 15 →
        t.matrixCell (formatCellA i).1 (formatCellA i).2 = funcCell (t.format.getLsbD i) ∧
        t.matrixCell (formatCellB side i).1 (formatCellB side i).2 = funcCell (t.format.getLsbD i)) ∧
      (7 ≤ v → ∀ i, i < 18 →
        t.matrixCell (versionCellTR side i).1 (versionCellTR side i).2 = funcCell (t.verinfo.getLsbD i) ∧
        t.matrixCell (versionCellBL side i).1 (versionCellBL side i).2 = funcCell (t.verinfo.getLsbD i)) ∧
      (∀ r c, r < side → c < side → (r, c) ∉ infoCells v side →
        t.matrixCell r c = maskApply s.scores.mask.toNat r c (s.matrixCell r c)) ∧
      (∀ i, side * side ≤ i → t.readByte .matrix i = s.readByte .matrix i) ∧
      SameBytesExcept [.matrix] s t

/-! ### Independence and frames over all commands -/

/-- From R267: every successful or failed GF or RS command writes nothing but GFRES, ECCOUNT, GENV, RSV, RSOUT and GEN
besides the completion report, and the pipeline commands write none of these. -/
def Obligations.CommandFamiliesWriteApart : Prop :=
  (∀ (i : Instr) (s t : State), (∀ v e, i ≠ .qrBegin v e) → i ∉ [.qrAsm, .qrBuild, .qrEval, .qrFinal] →
    exec i s = .next t →
    t = { s with gfres := t.gfres, eccount := t.eccount, genv := t.genv, rsv := t.rsv, bufs := t.bufs,
                 errcode := t.errcode, done := true, err := t.err, latch := none } ∧
    SameBytesExcept [.rsout, .gen] s t) ∧
  (∀ (i : Instr) (s t : State), ((∃ v e, i = .qrBegin v e) ∨ i ∈ [.qrAsm, .qrBuild, .qrEval, .qrFinal]) →
    exec i s = .next t →
    t.gfres = s.gfres ∧ t.eccount = s.eccount ∧ t.genv = s.genv ∧ t.rsv = s.rsv ∧
    SameBytesExcept [.data, .ecc, .cw, .matrix] s t)

/-- From R51: no command writes BITS or RSIN, or a register of the host (BITLEN, IRQEN, BUF_SEL, BUF_ADDR), and the host writes
no other buffer, but for a reset. -/
def Obligations.CommandsAndHostWriteApart : Prop :=
  (∀ (i : Instr) (s t : State), exec i s = .next t →
    (∀ k, t.readByte .bits k = s.readByte .bits k) ∧ (∀ k, t.readByte .rsin k = s.readByte .rsin k) ∧
    t.bitlen = s.bitlen ∧ t.irqen = s.irqen ∧ t.bufSel = s.bufSel ∧ t.bufAddr = s.bufAddr ∧ t.lastCmd = s.lastCmd ∧
    t.acccode = s.acccode ∧ t.accErr = s.accErr) ∧
  (∀ (a : Access) (s t : State), a.isSoftReset = false → access a s = .next t → SameBytesExcept [.bits, .rsin] s t)

/-! ### The host bus (20_memory.md, 60_exceptions.md) -/

/-- From R74 to R77, R290, R291: the checks of an access in their order; a rejected read returns 0, a rejected access
changes nothing else but its report. -/
def Obligations.RejectedAccessesReportInOrder : Prop :=
  ∀ (a : Access) (s : State) (off : Nat) (aligned mapped : Prop) (rejected : BitVec 8 → State),
    off = a.offset.toNat → (aligned ↔ a.width = 32 ∧ off % 4 = 0) → (mapped ↔ off ≤ 0x90 ∧ off ≠ 0x5C) →
    rejected = (fun code =>
      { s with acccode := code, accErr := true, busData := if a.kind = .read then 0 else s.busData }) →
    (¬ aligned → access a s = .next (rejected 3)) ∧
    (aligned → ¬ mapped → access a s = .next (rejected 2)) ∧
    (aligned → mapped → s.busy = true → (a.kind = .read ∧ off = 0x58) ∨ (a.kind = .write ∧ off ∉ [0x04, 0x08, 0x0C]) →
      access a s = .next (rejected 1)) ∧
    (aligned → mapped → s.busy = false → a.kind = .write →
      off ∉ [0x04, 0x08, 0x0C, 0x10, 0x1C, 0x50, 0x54, 0x58] → access a s = .next (rejected 4))

/-- From R23, R25 to R50, R77, R78: each register but BUF_DATA stands at its offset of the map, and an aligned 32-bit read
there is answered with its value, its fields in their places and every other bit 0, whether or not a command is pending, and
changes nothing else (the answer's field: log entry 7). -/
def Obligations.RegisterReadsHaveNoSideEffect : Prop :=
  ∀ (r : Csr) (offset : BitVec 8) (word : Word) (s : State) (data : Word),
    (r, offset, word) ∈ registerWords s →
    r.offset = offset ∧ readCsr r s = word ∧
    access { kind := .read, width := 32, offset := offset, data := data } s = .next { s with busData := word }

/-- From R24, R28, R32, R45, R46: a value the host writes to IRQEN, BITLEN, BUF_SEL or BUF_ADDR reads back masked to the named
fields, and the write changes that register only. A write to IRQEN is accepted also while a command is pending, the others
while none is. -/
def Obligations.HostRegistersReadBackMasked : Prop :=
  ∀ (r : Csr) (mask w : Word) (s : State),
    (r, mask) ∈ [(Csr.irqen, 0x0000000E#32), (.bitlen, 0x00007FFF#32), (.bufSel, 0x0000000F#32), (.bufAddr, 0x0000FFFF#32)] →
    r = .irqen ∨ s.busy = false →
    ∃ t, access { kind := .write, width := 32, offset := r.offset, data := w } s = .next t ∧
      readCsr r t = w &&& mask ∧
      t = { s with irqen := t.irqen, bitlen := t.bitlen, bufSel := t.bufSel, bufAddr := t.bufAddr } ∧
      (∀ r' : Csr, r' ≠ r → readCsr r' t = readCsr r' s)

/-- From R27: a read of STATUS returns its fields, every other bit 0; a write clears exactly the flags DONE, ERR and ACCERR
whose bits are 1, also while a command is pending, and changes nothing else. -/
def Obligations.StatusReadsAndClearsAsStated : Prop :=
  ∀ (w : Word) (s : State),
    (readCsr .status s).toNat =
      s.latch.isSome.toNat + 2 * s.done.toNat + 4 * s.err.toNat + 8 * s.accErr.toNat + 256 * s.phase.code.toNat +
        4096 * s.genv.toNat + 8192 * s.rsv.toNat ∧
    ∃ t, access { kind := .write, width := 32, offset := 0x08, data := w } s = .next t ∧
      t = { s with done := t.done, err := t.err, accErr := t.accErr } ∧
      readCsr .status t = readCsr .status s &&& ~~~ (w &&& 0x0000000E)

/-- From R300: the interrupt line is the OR of DONE, ERR and ACCERR, each gated by its enable, read from the two register
words. -/
def Obligations.InterruptLineIsTheGatedOr : Prop :=
  ∀ s : State, s.irq = true ↔ readCsr .status s &&& readCsr .irqen s &&& 0x0000000E ≠ 0

/-- From R79, R80, R81, R82: an access of BUF_DATA while no command is pending: the first failing check is reported, a read
returns the byte zero-extended, a write stores the low byte, and BUF_ADDR advances modulo 2^16 in every case. The byte
exists when the buffer's extent is within its capacity (log entry 8). -/
def Obligations.BufferPortFollowsPortCheck : Prop :=
  ∀ (kind : AccessKind) (w : Word) (s : State) (i : Nat) (rejected : BitVec 8 → State), s.busy = false →
    (∀ b : Buf, s.bufExtent b ≤ b.capacity) → i = s.bufAddr.toNat →
    rejected = (fun code =>
      { s with acccode := code, accErr := true, bufAddr := s.bufAddr + 1,
               busData := if kind = .read then 0 else s.busData }) →
    ∃ t, access { kind := kind, width := 32, offset := 0x58, data := w } s = .next t ∧
      t.bufAddr = s.bufAddr + 1 ∧
      (8 ≤ s.bufSel.toNat → t = rejected 7) ∧
      (∀ b : Buf, b.sel = s.bufSel.toNat →
        (kind = .write → b ≠ .bits → b ≠ .rsin → t = rejected 4) ∧
        (kind = .read ∨ b = .bits ∨ b = .rsin → s.bufValid b = false → t = rejected 6) ∧
        (kind = .read ∨ b = .bits ∨ b = .rsin → s.bufValid b = true → s.bufExtent b ≤ i → t = rejected 5) ∧
        (kind = .read → s.bufValid b = true → i < s.bufExtent b →
          t = { s with busData := (s.readByte b i).setWidth 32, bufAddr := s.bufAddr + 1 }) ∧
        (kind = .write → b = .bits ∨ b = .rsin → i < s.bufExtent b →
          t = { s with bufs := t.bufs, bufAddr := s.bufAddr + 1 } ∧ t.readByte b i = w.setWidth 8 ∧
          (∀ j, j ≠ i → t.readByte b j = s.readByte b j) ∧ SameBytesExcept [b] s t))

/-! ### Reset (70_reset_and_hazards.md) -/

/-- From R63, R320: after a hard reset every register reads 0 but ID, no command is pending, IRQ is deasserted, BITS and RSIN
can be read and no other buffer can. The draws of BITS and RSIN are those of the new power-on (log entries 1, 3). -/
def Obligations.HardResetClearsEveryRegister : Prop :=
  ∀ (s : State) (rest : List Turn), s.agenda = .hardReset :: rest →
    ∃ t, step s = .next t ∧ readCsr .id t = 0x51524331 ∧ (∀ r : Csr, r ≠ .id → readCsr r t = 0) ∧ t.latch = none ∧
      t.irq = false ∧ t.phase = .unsegmented ∧ (∀ b : Buf, t.bufValid b = true ↔ b = .bits ∨ b = .rsin) ∧
      (∀ i, t.readByte .bits i = Config.unspecifiedByte t.powerOns 0 i) ∧
      (∀ i, t.readByte .rsin i = Config.unspecifiedByte t.powerOns 5 i) ∧ t.powerOns = s.powerOns + 1

/-- R322: a write of CTRL with bit 0 set, accepted in every state, resets every register but keeps BITS and RSIN, and
discards a pending command; with bit 0 clear it changes nothing. -/
def Obligations.SoftResetKeepsTheInputs : Prop :=
  ∀ (w : Word) (s : State),
    ∃ t, access { kind := .write, width := 32, offset := 0x04, data := w } s = .next t ∧
      (w.getLsbD 0 = false → t = s) ∧
      (w.getLsbD 0 = true →
        readCsr .id t = 0x51524331 ∧ (∀ r : Csr, r ≠ .id → readCsr r t = 0) ∧ t.latch = none ∧ t.irq = false ∧
        t.phase = .unsegmented ∧ (∀ b : Buf, t.bufValid b = true ↔ b = .bits ∨ b = .rsin) ∧
        (∀ i, t.readByte .bits i = s.readByte .bits i) ∧ (∀ i, t.readByte .rsin i = s.readByte .rsin i))

/-! ### Invariants -/

/-- The invariant of Safety.lean holds right after reset. -/
def Obligations.ResetMeetsTheInvariant : Prop :=
  Inv State.reset

/-- From R51, log entry 1: every step keeps every buffer in canonical form and within its capacity. -/
def Obligations.StepKeepsBuffersCanonical : Prop :=
  ∀ s t : State, BuffersCanonical s → step s = .next t → BuffersCanonical t

/-- From R33 to R39, R160: every step keeps the symbol parameters those of a legal version and level, or those of reset. -/
def Obligations.StepKeepsParameters : Prop :=
  ∀ s t : State, ParamsAgree s → step s = .next t → ParamsAgree t

/-- From every state that meets the invariant of Safety.lean, no step faults or refuses (log entry 8), and every step keeps
the whole invariant: buffers, latch, codes, parameters, generator, written results, legal cells and optimal scores
(10_state.md R33 to R39, R51 to R55, R58, 41_rs.md R145, R146, 42_assemble.md R160, 43_matrix.md R203, 44_mask.md R231 to
R233, R240, R242, R244, 60_exceptions.md R281, R290). The canonical form of a buffer is the model's (log entry 1). -/
def Obligations.StepKeepsTheInvariant : Prop :=
  ∀ s : State, Inv s → ∃ t, step s = .next t ∧ Inv t

/-! ### The assembler (30_encoding.md) -/

/-- From R106, R107, R109: ENCODE, CLRST and SRST expand as stated, and a command whose operand does not fit its field does not
assemble. -/
def Obligations.PseudoInstructionsExpandAsStated : Prop :=
  (∀ v e : Nat, v < 64 → e < 8 →
    Statement.expand? (.encode v e) =
      some [.write 0x10 (encode (.qrBegin v e)).toNat, .wait, .write 0x10 0x21, .wait, .write 0x10 0x22, .wait,
        .write 0x10 0x23, .wait, .write 0x10 0x24, .wait]) ∧
  Statement.expand? .clrst = some [.write 0x08 0x0000000E] ∧
  Statement.expand? .srst = some [.write 0x04 1] ∧
  (∀ i : Instr, i.wf = false → Statement.expand? (.command i) = none)
end

