-- ==== Sys2Proof/Laws/State.lean ====
section
/-! SUPPORT. The fields of a state after each named update: one lemma per field, true by rfl. -/

namespace Sys2Proof.Machine

/-! ### settle -/

@[simp] theorem State.settle_latch (code : BitVec 8) (s : State) : (s.settle code).latch = none := rfl
@[simp] theorem State.settle_lastCmd (code : BitVec 8) (s : State) : (s.settle code).lastCmd = s.lastCmd := rfl
@[simp] theorem State.settle_done (code : BitVec 8) (s : State) : (s.settle code).done = true := rfl
@[simp] theorem State.settle_err (code : BitVec 8) (s : State) : (s.settle code).err = (s.err || code != 0) := rfl
@[simp] theorem State.settle_accErr (code : BitVec 8) (s : State) : (s.settle code).accErr = s.accErr := rfl
@[simp] theorem State.settle_phase (code : BitVec 8) (s : State) : (s.settle code).phase = s.phase := rfl
@[simp] theorem State.settle_genv (code : BitVec 8) (s : State) : (s.settle code).genv = s.genv := rfl
@[simp] theorem State.settle_rsv (code : BitVec 8) (s : State) : (s.settle code).rsv = s.rsv := rfl
@[simp] theorem State.settle_irqen (code : BitVec 8) (s : State) : (s.settle code).irqen = s.irqen := rfl
@[simp] theorem State.settle_errcode (code : BitVec 8) (s : State) : (s.settle code).errcode = code := rfl
@[simp] theorem State.settle_acccode (code : BitVec 8) (s : State) : (s.settle code).acccode = s.acccode := rfl
@[simp] theorem State.settle_bitlen (code : BitVec 8) (s : State) : (s.settle code).bitlen = s.bitlen := rfl
@[simp] theorem State.settle_params (code : BitVec 8) (s : State) : (s.settle code).params = s.params := rfl
@[simp] theorem State.settle_scores (code : BitVec 8) (s : State) : (s.settle code).scores = s.scores := rfl
@[simp] theorem State.settle_format (code : BitVec 8) (s : State) : (s.settle code).format = s.format := rfl
@[simp] theorem State.settle_verinfo (code : BitVec 8) (s : State) : (s.settle code).verinfo = s.verinfo := rfl
@[simp] theorem State.settle_gfres (code : BitVec 8) (s : State) : (s.settle code).gfres = s.gfres := rfl
@[simp] theorem State.settle_eccount (code : BitVec 8) (s : State) : (s.settle code).eccount = s.eccount := rfl
@[simp] theorem State.settle_bufSel (code : BitVec 8) (s : State) : (s.settle code).bufSel = s.bufSel := rfl
@[simp] theorem State.settle_bufAddr (code : BitVec 8) (s : State) : (s.settle code).bufAddr = s.bufAddr := rfl
@[simp] theorem State.settle_bufs (code : BitVec 8) (s : State) : (s.settle code).bufs = s.bufs := rfl
@[simp] theorem State.settle_busData (code : BitVec 8) (s : State) : (s.settle code).busData = s.busData := rfl
@[simp] theorem State.settle_agenda (code : BitVec 8) (s : State) : (s.settle code).agenda = s.agenda := rfl
@[simp] theorem State.settle_powerOns (code : BitVec 8) (s : State) : (s.settle code).powerOns = s.powerOns := rfl
@[simp] theorem State.settle_resets (code : BitVec 8) (s : State) : (s.settle code).resets = s.resets := rfl

/-! ### issue -/

@[simp] theorem State.issue_latch (w : Word) (s : State) : (s.issue w).latch = some w := rfl
@[simp] theorem State.issue_lastCmd (w : Word) (s : State) : (s.issue w).lastCmd = w := rfl
@[simp] theorem State.issue_done (w : Word) (s : State) : (s.issue w).done = s.done := rfl
@[simp] theorem State.issue_err (w : Word) (s : State) : (s.issue w).err = s.err := rfl
@[simp] theorem State.issue_accErr (w : Word) (s : State) : (s.issue w).accErr = s.accErr := rfl
@[simp] theorem State.issue_phase (w : Word) (s : State) : (s.issue w).phase = s.phase := rfl
@[simp] theorem State.issue_genv (w : Word) (s : State) : (s.issue w).genv = s.genv := rfl
@[simp] theorem State.issue_rsv (w : Word) (s : State) : (s.issue w).rsv = s.rsv := rfl
@[simp] theorem State.issue_irqen (w : Word) (s : State) : (s.issue w).irqen = s.irqen := rfl
@[simp] theorem State.issue_errcode (w : Word) (s : State) : (s.issue w).errcode = s.errcode := rfl
@[simp] theorem State.issue_acccode (w : Word) (s : State) : (s.issue w).acccode = s.acccode := rfl
@[simp] theorem State.issue_bitlen (w : Word) (s : State) : (s.issue w).bitlen = s.bitlen := rfl
@[simp] theorem State.issue_params (w : Word) (s : State) : (s.issue w).params = s.params := rfl
@[simp] theorem State.issue_scores (w : Word) (s : State) : (s.issue w).scores = s.scores := rfl
@[simp] theorem State.issue_format (w : Word) (s : State) : (s.issue w).format = s.format := rfl
@[simp] theorem State.issue_verinfo (w : Word) (s : State) : (s.issue w).verinfo = s.verinfo := rfl
@[simp] theorem State.issue_gfres (w : Word) (s : State) : (s.issue w).gfres = s.gfres := rfl
@[simp] theorem State.issue_eccount (w : Word) (s : State) : (s.issue w).eccount = s.eccount := rfl
@[simp] theorem State.issue_bufSel (w : Word) (s : State) : (s.issue w).bufSel = s.bufSel := rfl
@[simp] theorem State.issue_bufAddr (w : Word) (s : State) : (s.issue w).bufAddr = s.bufAddr := rfl
@[simp] theorem State.issue_bufs (w : Word) (s : State) : (s.issue w).bufs = s.bufs := rfl
@[simp] theorem State.issue_busData (w : Word) (s : State) : (s.issue w).busData = s.busData := rfl
@[simp] theorem State.issue_agenda (w : Word) (s : State) : (s.issue w).agenda = s.agenda := rfl
@[simp] theorem State.issue_powerOns (w : Word) (s : State) : (s.issue w).powerOns = s.powerOns := rfl
@[simp] theorem State.issue_resets (w : Word) (s : State) : (s.issue w).resets = s.resets := rfl

/-! ### advance -/

@[simp] theorem State.advance_latch (s : State) : (s.advance).latch = s.latch := rfl
@[simp] theorem State.advance_lastCmd (s : State) : (s.advance).lastCmd = s.lastCmd := rfl
@[simp] theorem State.advance_done (s : State) : (s.advance).done = s.done := rfl
@[simp] theorem State.advance_err (s : State) : (s.advance).err = s.err := rfl
@[simp] theorem State.advance_accErr (s : State) : (s.advance).accErr = s.accErr := rfl
@[simp] theorem State.advance_phase (s : State) : (s.advance).phase = s.phase := rfl
@[simp] theorem State.advance_genv (s : State) : (s.advance).genv = s.genv := rfl
@[simp] theorem State.advance_rsv (s : State) : (s.advance).rsv = s.rsv := rfl
@[simp] theorem State.advance_irqen (s : State) : (s.advance).irqen = s.irqen := rfl
@[simp] theorem State.advance_errcode (s : State) : (s.advance).errcode = s.errcode := rfl
@[simp] theorem State.advance_acccode (s : State) : (s.advance).acccode = s.acccode := rfl
@[simp] theorem State.advance_bitlen (s : State) : (s.advance).bitlen = s.bitlen := rfl
@[simp] theorem State.advance_params (s : State) : (s.advance).params = s.params := rfl
@[simp] theorem State.advance_scores (s : State) : (s.advance).scores = s.scores := rfl
@[simp] theorem State.advance_format (s : State) : (s.advance).format = s.format := rfl
@[simp] theorem State.advance_verinfo (s : State) : (s.advance).verinfo = s.verinfo := rfl
@[simp] theorem State.advance_gfres (s : State) : (s.advance).gfres = s.gfres := rfl
@[simp] theorem State.advance_eccount (s : State) : (s.advance).eccount = s.eccount := rfl
@[simp] theorem State.advance_bufSel (s : State) : (s.advance).bufSel = s.bufSel := rfl
@[simp] theorem State.advance_bufAddr (s : State) : (s.advance).bufAddr = s.bufAddr + 1 := rfl
@[simp] theorem State.advance_bufs (s : State) : (s.advance).bufs = s.bufs := rfl
@[simp] theorem State.advance_busData (s : State) : (s.advance).busData = s.busData := rfl
@[simp] theorem State.advance_agenda (s : State) : (s.advance).agenda = s.agenda := rfl
@[simp] theorem State.advance_powerOns (s : State) : (s.advance).powerOns = s.powerOns := rfl
@[simp] theorem State.advance_resets (s : State) : (s.advance).resets = s.resets := rfl

/-! ### writeStatus -/

@[simp] theorem State.writeStatus_latch (w : Word) (s : State) : (s.writeStatus w).latch = s.latch := rfl
@[simp] theorem State.writeStatus_lastCmd (w : Word) (s : State) : (s.writeStatus w).lastCmd = s.lastCmd := rfl
@[simp] theorem State.writeStatus_done (w : Word) (s : State) : (s.writeStatus w).done = (s.done && !w.getLsbD 1) := rfl
@[simp] theorem State.writeStatus_err (w : Word) (s : State) : (s.writeStatus w).err = (s.err && !w.getLsbD 2) := rfl
@[simp] theorem State.writeStatus_accErr (w : Word) (s : State) : (s.writeStatus w).accErr = (s.accErr && !w.getLsbD 3) := rfl
@[simp] theorem State.writeStatus_phase (w : Word) (s : State) : (s.writeStatus w).phase = s.phase := rfl
@[simp] theorem State.writeStatus_genv (w : Word) (s : State) : (s.writeStatus w).genv = s.genv := rfl
@[simp] theorem State.writeStatus_rsv (w : Word) (s : State) : (s.writeStatus w).rsv = s.rsv := rfl
@[simp] theorem State.writeStatus_irqen (w : Word) (s : State) : (s.writeStatus w).irqen = s.irqen := rfl
@[simp] theorem State.writeStatus_errcode (w : Word) (s : State) : (s.writeStatus w).errcode = s.errcode := rfl
@[simp] theorem State.writeStatus_acccode (w : Word) (s : State) : (s.writeStatus w).acccode = s.acccode := rfl
@[simp] theorem State.writeStatus_bitlen (w : Word) (s : State) : (s.writeStatus w).bitlen = s.bitlen := rfl
@[simp] theorem State.writeStatus_params (w : Word) (s : State) : (s.writeStatus w).params = s.params := rfl
@[simp] theorem State.writeStatus_scores (w : Word) (s : State) : (s.writeStatus w).scores = s.scores := rfl
@[simp] theorem State.writeStatus_format (w : Word) (s : State) : (s.writeStatus w).format = s.format := rfl
@[simp] theorem State.writeStatus_verinfo (w : Word) (s : State) : (s.writeStatus w).verinfo = s.verinfo := rfl
@[simp] theorem State.writeStatus_gfres (w : Word) (s : State) : (s.writeStatus w).gfres = s.gfres := rfl
@[simp] theorem State.writeStatus_eccount (w : Word) (s : State) : (s.writeStatus w).eccount = s.eccount := rfl
@[simp] theorem State.writeStatus_bufSel (w : Word) (s : State) : (s.writeStatus w).bufSel = s.bufSel := rfl
@[simp] theorem State.writeStatus_bufAddr (w : Word) (s : State) : (s.writeStatus w).bufAddr = s.bufAddr := rfl
@[simp] theorem State.writeStatus_bufs (w : Word) (s : State) : (s.writeStatus w).bufs = s.bufs := rfl
@[simp] theorem State.writeStatus_busData (w : Word) (s : State) : (s.writeStatus w).busData = s.busData := rfl
@[simp] theorem State.writeStatus_agenda (w : Word) (s : State) : (s.writeStatus w).agenda = s.agenda := rfl
@[simp] theorem State.writeStatus_powerOns (w : Word) (s : State) : (s.writeStatus w).powerOns = s.powerOns := rfl
@[simp] theorem State.writeStatus_resets (w : Word) (s : State) : (s.writeStatus w).resets = s.resets := rfl

/-! ### writeIrqen -/

@[simp] theorem State.writeIrqen_latch (w : Word) (s : State) : (s.writeIrqen w).latch = s.latch := rfl
@[simp] theorem State.writeIrqen_lastCmd (w : Word) (s : State) : (s.writeIrqen w).lastCmd = s.lastCmd := rfl
@[simp] theorem State.writeIrqen_done (w : Word) (s : State) : (s.writeIrqen w).done = s.done := rfl
@[simp] theorem State.writeIrqen_err (w : Word) (s : State) : (s.writeIrqen w).err = s.err := rfl
@[simp] theorem State.writeIrqen_accErr (w : Word) (s : State) : (s.writeIrqen w).accErr = s.accErr := rfl
@[simp] theorem State.writeIrqen_phase (w : Word) (s : State) : (s.writeIrqen w).phase = s.phase := rfl
@[simp] theorem State.writeIrqen_genv (w : Word) (s : State) : (s.writeIrqen w).genv = s.genv := rfl
@[simp] theorem State.writeIrqen_rsv (w : Word) (s : State) : (s.writeIrqen w).rsv = s.rsv := rfl
@[simp] theorem State.writeIrqen_irqen (w : Word) (s : State) : (s.writeIrqen w).irqen = { doneIe := w.getLsbD 1, errIe := w.getLsbD 2, accIe := w.getLsbD 3 } := rfl
@[simp] theorem State.writeIrqen_errcode (w : Word) (s : State) : (s.writeIrqen w).errcode = s.errcode := rfl
@[simp] theorem State.writeIrqen_acccode (w : Word) (s : State) : (s.writeIrqen w).acccode = s.acccode := rfl
@[simp] theorem State.writeIrqen_bitlen (w : Word) (s : State) : (s.writeIrqen w).bitlen = s.bitlen := rfl
@[simp] theorem State.writeIrqen_params (w : Word) (s : State) : (s.writeIrqen w).params = s.params := rfl
@[simp] theorem State.writeIrqen_scores (w : Word) (s : State) : (s.writeIrqen w).scores = s.scores := rfl
@[simp] theorem State.writeIrqen_format (w : Word) (s : State) : (s.writeIrqen w).format = s.format := rfl
@[simp] theorem State.writeIrqen_verinfo (w : Word) (s : State) : (s.writeIrqen w).verinfo = s.verinfo := rfl
@[simp] theorem State.writeIrqen_gfres (w : Word) (s : State) : (s.writeIrqen w).gfres = s.gfres := rfl
@[simp] theorem State.writeIrqen_eccount (w : Word) (s : State) : (s.writeIrqen w).eccount = s.eccount := rfl
@[simp] theorem State.writeIrqen_bufSel (w : Word) (s : State) : (s.writeIrqen w).bufSel = s.bufSel := rfl
@[simp] theorem State.writeIrqen_bufAddr (w : Word) (s : State) : (s.writeIrqen w).bufAddr = s.bufAddr := rfl
@[simp] theorem State.writeIrqen_bufs (w : Word) (s : State) : (s.writeIrqen w).bufs = s.bufs := rfl
@[simp] theorem State.writeIrqen_busData (w : Word) (s : State) : (s.writeIrqen w).busData = s.busData := rfl
@[simp] theorem State.writeIrqen_agenda (w : Word) (s : State) : (s.writeIrqen w).agenda = s.agenda := rfl
@[simp] theorem State.writeIrqen_powerOns (w : Word) (s : State) : (s.writeIrqen w).powerOns = s.powerOns := rfl
@[simp] theorem State.writeIrqen_resets (w : Word) (s : State) : (s.writeIrqen w).resets = s.resets := rfl

/-! ### writeByte -/

@[simp] theorem State.writeByte_latch (b : Buf) (i : Nat) (v : Byte) (s : State) : (s.writeByte b i v).latch = s.latch := rfl
@[simp] theorem State.writeByte_lastCmd (b : Buf) (i : Nat) (v : Byte) (s : State) : (s.writeByte b i v).lastCmd = s.lastCmd := rfl
@[simp] theorem State.writeByte_done (b : Buf) (i : Nat) (v : Byte) (s : State) : (s.writeByte b i v).done = s.done := rfl
@[simp] theorem State.writeByte_err (b : Buf) (i : Nat) (v : Byte) (s : State) : (s.writeByte b i v).err = s.err := rfl
@[simp] theorem State.writeByte_accErr (b : Buf) (i : Nat) (v : Byte) (s : State) : (s.writeByte b i v).accErr = s.accErr := rfl
@[simp] theorem State.writeByte_phase (b : Buf) (i : Nat) (v : Byte) (s : State) : (s.writeByte b i v).phase = s.phase := rfl
@[simp] theorem State.writeByte_genv (b : Buf) (i : Nat) (v : Byte) (s : State) : (s.writeByte b i v).genv = s.genv := rfl
@[simp] theorem State.writeByte_rsv (b : Buf) (i : Nat) (v : Byte) (s : State) : (s.writeByte b i v).rsv = s.rsv := rfl
@[simp] theorem State.writeByte_irqen (b : Buf) (i : Nat) (v : Byte) (s : State) : (s.writeByte b i v).irqen = s.irqen := rfl
@[simp] theorem State.writeByte_errcode (b : Buf) (i : Nat) (v : Byte) (s : State) : (s.writeByte b i v).errcode = s.errcode := rfl
@[simp] theorem State.writeByte_acccode (b : Buf) (i : Nat) (v : Byte) (s : State) : (s.writeByte b i v).acccode = s.acccode := rfl
@[simp] theorem State.writeByte_bitlen (b : Buf) (i : Nat) (v : Byte) (s : State) : (s.writeByte b i v).bitlen = s.bitlen := rfl
@[simp] theorem State.writeByte_params (b : Buf) (i : Nat) (v : Byte) (s : State) : (s.writeByte b i v).params = s.params := rfl
@[simp] theorem State.writeByte_scores (b : Buf) (i : Nat) (v : Byte) (s : State) : (s.writeByte b i v).scores = s.scores := rfl
@[simp] theorem State.writeByte_format (b : Buf) (i : Nat) (v : Byte) (s : State) : (s.writeByte b i v).format = s.format := rfl
@[simp] theorem State.writeByte_verinfo (b : Buf) (i : Nat) (v : Byte) (s : State) : (s.writeByte b i v).verinfo = s.verinfo := rfl
@[simp] theorem State.writeByte_gfres (b : Buf) (i : Nat) (v : Byte) (s : State) : (s.writeByte b i v).gfres = s.gfres := rfl
@[simp] theorem State.writeByte_eccount (b : Buf) (i : Nat) (v : Byte) (s : State) : (s.writeByte b i v).eccount = s.eccount := rfl
@[simp] theorem State.writeByte_bufSel (b : Buf) (i : Nat) (v : Byte) (s : State) : (s.writeByte b i v).bufSel = s.bufSel := rfl
@[simp] theorem State.writeByte_bufAddr (b : Buf) (i : Nat) (v : Byte) (s : State) : (s.writeByte b i v).bufAddr = s.bufAddr := rfl
@[simp] theorem State.writeByte_bufs (b : Buf) (i : Nat) (v : Byte) (s : State) : (s.writeByte b i v).bufs = s.bufs.set b ((s.bufs.get b).insert i v) := rfl
@[simp] theorem State.writeByte_busData (b : Buf) (i : Nat) (v : Byte) (s : State) : (s.writeByte b i v).busData = s.busData := rfl
@[simp] theorem State.writeByte_agenda (b : Buf) (i : Nat) (v : Byte) (s : State) : (s.writeByte b i v).agenda = s.agenda := rfl
@[simp] theorem State.writeByte_powerOns (b : Buf) (i : Nat) (v : Byte) (s : State) : (s.writeByte b i v).powerOns = s.powerOns := rfl
@[simp] theorem State.writeByte_resets (b : Buf) (i : Nat) (v : Byte) (s : State) : (s.writeByte b i v).resets = s.resets := rfl

/-! ### rejectAccess -/

@[simp] theorem rejectAccess_latch (e : AccError) (k : AccessKind) (s : State) : (rejectAccess e k s).latch = s.latch := rfl
@[simp] theorem rejectAccess_lastCmd (e : AccError) (k : AccessKind) (s : State) : (rejectAccess e k s).lastCmd = s.lastCmd := rfl
@[simp] theorem rejectAccess_done (e : AccError) (k : AccessKind) (s : State) : (rejectAccess e k s).done = s.done := rfl
@[simp] theorem rejectAccess_err (e : AccError) (k : AccessKind) (s : State) : (rejectAccess e k s).err = s.err := rfl
@[simp] theorem rejectAccess_accErr (e : AccError) (k : AccessKind) (s : State) : (rejectAccess e k s).accErr = true := rfl
@[simp] theorem rejectAccess_phase (e : AccError) (k : AccessKind) (s : State) : (rejectAccess e k s).phase = s.phase := rfl
@[simp] theorem rejectAccess_genv (e : AccError) (k : AccessKind) (s : State) : (rejectAccess e k s).genv = s.genv := rfl
@[simp] theorem rejectAccess_rsv (e : AccError) (k : AccessKind) (s : State) : (rejectAccess e k s).rsv = s.rsv := rfl
@[simp] theorem rejectAccess_irqen (e : AccError) (k : AccessKind) (s : State) : (rejectAccess e k s).irqen = s.irqen := rfl
@[simp] theorem rejectAccess_errcode (e : AccError) (k : AccessKind) (s : State) : (rejectAccess e k s).errcode = s.errcode := rfl
@[simp] theorem rejectAccess_acccode (e : AccError) (k : AccessKind) (s : State) : (rejectAccess e k s).acccode = e.code := rfl
@[simp] theorem rejectAccess_bitlen (e : AccError) (k : AccessKind) (s : State) : (rejectAccess e k s).bitlen = s.bitlen := rfl
@[simp] theorem rejectAccess_params (e : AccError) (k : AccessKind) (s : State) : (rejectAccess e k s).params = s.params := rfl
@[simp] theorem rejectAccess_scores (e : AccError) (k : AccessKind) (s : State) : (rejectAccess e k s).scores = s.scores := rfl
@[simp] theorem rejectAccess_format (e : AccError) (k : AccessKind) (s : State) : (rejectAccess e k s).format = s.format := rfl
@[simp] theorem rejectAccess_verinfo (e : AccError) (k : AccessKind) (s : State) : (rejectAccess e k s).verinfo = s.verinfo := rfl
@[simp] theorem rejectAccess_gfres (e : AccError) (k : AccessKind) (s : State) : (rejectAccess e k s).gfres = s.gfres := rfl
@[simp] theorem rejectAccess_eccount (e : AccError) (k : AccessKind) (s : State) : (rejectAccess e k s).eccount = s.eccount := rfl
@[simp] theorem rejectAccess_bufSel (e : AccError) (k : AccessKind) (s : State) : (rejectAccess e k s).bufSel = s.bufSel := rfl
@[simp] theorem rejectAccess_bufAddr (e : AccError) (k : AccessKind) (s : State) : (rejectAccess e k s).bufAddr = s.bufAddr := rfl
@[simp] theorem rejectAccess_bufs (e : AccError) (k : AccessKind) (s : State) : (rejectAccess e k s).bufs = s.bufs := rfl
@[simp] theorem rejectAccess_agenda (e : AccError) (k : AccessKind) (s : State) : (rejectAccess e k s).agenda = s.agenda := rfl
@[simp] theorem rejectAccess_powerOns (e : AccError) (k : AccessKind) (s : State) : (rejectAccess e k s).powerOns = s.powerOns := rfl
@[simp] theorem rejectAccess_resets (e : AccError) (k : AccessKind) (s : State) : (rejectAccess e k s).resets = s.resets := rfl
@[simp] theorem rejectAccess_read_busData (e : AccError) (s : State) : (rejectAccess e .read s).busData = 0 := rfl
@[simp] theorem rejectAccess_write_busData (e : AccError) (s : State) : (rejectAccess e .write s).busData = s.busData := rfl

/-! ### softReset -/

@[simp] theorem softReset_latch (s : State) : (softReset s).latch = State.reset.latch := rfl
@[simp] theorem softReset_lastCmd (s : State) : (softReset s).lastCmd = State.reset.lastCmd := rfl
@[simp] theorem softReset_done (s : State) : (softReset s).done = State.reset.done := rfl
@[simp] theorem softReset_err (s : State) : (softReset s).err = State.reset.err := rfl
@[simp] theorem softReset_accErr (s : State) : (softReset s).accErr = State.reset.accErr := rfl
@[simp] theorem softReset_phase (s : State) : (softReset s).phase = State.reset.phase := rfl
@[simp] theorem softReset_genv (s : State) : (softReset s).genv = State.reset.genv := rfl
@[simp] theorem softReset_rsv (s : State) : (softReset s).rsv = State.reset.rsv := rfl
@[simp] theorem softReset_irqen (s : State) : (softReset s).irqen = State.reset.irqen := rfl
@[simp] theorem softReset_errcode (s : State) : (softReset s).errcode = State.reset.errcode := rfl
@[simp] theorem softReset_acccode (s : State) : (softReset s).acccode = State.reset.acccode := rfl
@[simp] theorem softReset_bitlen (s : State) : (softReset s).bitlen = State.reset.bitlen := rfl
@[simp] theorem softReset_params (s : State) : (softReset s).params = State.reset.params := rfl
@[simp] theorem softReset_scores (s : State) : (softReset s).scores = State.reset.scores := rfl
@[simp] theorem softReset_format (s : State) : (softReset s).format = State.reset.format := rfl
@[simp] theorem softReset_verinfo (s : State) : (softReset s).verinfo = State.reset.verinfo := rfl
@[simp] theorem softReset_gfres (s : State) : (softReset s).gfres = State.reset.gfres := rfl
@[simp] theorem softReset_eccount (s : State) : (softReset s).eccount = State.reset.eccount := rfl
@[simp] theorem softReset_bufSel (s : State) : (softReset s).bufSel = State.reset.bufSel := rfl
@[simp] theorem softReset_bufAddr (s : State) : (softReset s).bufAddr = State.reset.bufAddr := rfl
@[simp] theorem softReset_bufs (s : State) : (softReset s).bufs = { Buffers.unwritten with bits := s.bufs.bits, rsin := s.bufs.rsin } := rfl
@[simp] theorem softReset_busData (s : State) : (softReset s).busData = s.busData := rfl
@[simp] theorem softReset_agenda (s : State) : (softReset s).agenda = s.agenda := rfl
@[simp] theorem softReset_powerOns (s : State) : (softReset s).powerOns = s.powerOns := rfl
@[simp] theorem softReset_resets (s : State) : (softReset s).resets = s.resets + 1 := rfl

/-! ### hardReset -/

@[simp] theorem hardReset_latch (s : State) : (hardReset s).latch = State.reset.latch := rfl
@[simp] theorem hardReset_lastCmd (s : State) : (hardReset s).lastCmd = State.reset.lastCmd := rfl
@[simp] theorem hardReset_done (s : State) : (hardReset s).done = State.reset.done := rfl
@[simp] theorem hardReset_err (s : State) : (hardReset s).err = State.reset.err := rfl
@[simp] theorem hardReset_accErr (s : State) : (hardReset s).accErr = State.reset.accErr := rfl
@[simp] theorem hardReset_phase (s : State) : (hardReset s).phase = State.reset.phase := rfl
@[simp] theorem hardReset_genv (s : State) : (hardReset s).genv = State.reset.genv := rfl
@[simp] theorem hardReset_rsv (s : State) : (hardReset s).rsv = State.reset.rsv := rfl
@[simp] theorem hardReset_irqen (s : State) : (hardReset s).irqen = State.reset.irqen := rfl
@[simp] theorem hardReset_errcode (s : State) : (hardReset s).errcode = State.reset.errcode := rfl
@[simp] theorem hardReset_acccode (s : State) : (hardReset s).acccode = State.reset.acccode := rfl
@[simp] theorem hardReset_bitlen (s : State) : (hardReset s).bitlen = State.reset.bitlen := rfl
@[simp] theorem hardReset_params (s : State) : (hardReset s).params = State.reset.params := rfl
@[simp] theorem hardReset_scores (s : State) : (hardReset s).scores = State.reset.scores := rfl
@[simp] theorem hardReset_format (s : State) : (hardReset s).format = State.reset.format := rfl
@[simp] theorem hardReset_verinfo (s : State) : (hardReset s).verinfo = State.reset.verinfo := rfl
@[simp] theorem hardReset_gfres (s : State) : (hardReset s).gfres = State.reset.gfres := rfl
@[simp] theorem hardReset_eccount (s : State) : (hardReset s).eccount = State.reset.eccount := rfl
@[simp] theorem hardReset_bufSel (s : State) : (hardReset s).bufSel = State.reset.bufSel := rfl
@[simp] theorem hardReset_bufAddr (s : State) : (hardReset s).bufAddr = State.reset.bufAddr := rfl
@[simp] theorem hardReset_bufs (s : State) : (hardReset s).bufs = State.reset.bufs := rfl
@[simp] theorem hardReset_busData (s : State) : (hardReset s).busData = State.reset.busData := rfl
@[simp] theorem hardReset_agenda (s : State) : (hardReset s).agenda = s.agenda := rfl
@[simp] theorem hardReset_powerOns (s : State) : (hardReset s).powerOns = s.powerOns + 1 := rfl
@[simp] theorem hardReset_resets (s : State) : (hardReset s).resets = s.resets + 1 := rfl

end Sys2Proof.Machine
end

