-- ==== Sys2Proof/Laws/Memory.lean ====
section
/-! SUPPORT. What the buffer operations do: read after write, read after load, blocks, and the canonical form. -/

namespace Sys2Proof.Machine

/-! ### Reading -/

@[simp] theorem Memory.get?_nil (i : Nat) : Memory.get? [] i = none := rfl

theorem Memory.get?_cons (cell : Host.Cell) (m : Memory) (i : Nat) :
    Memory.get? (cell :: m) i = if cell.1 < i then Memory.get? m i else if cell.1 = i then some cell.2 else none := by
  unfold Memory.get?
  by_cases h : cell.1 < i <;> simp [List.dropWhile, h]

theorem Memory.get?_dropWhile (m : Memory) {i j : Nat} (h : j ≤ i) :
    Memory.get? (m.dropWhile fun cell => decide (cell.1 < j)) i = Memory.get? m i := by
  induction m with
  | nil => rfl
  | cons cell rest ih =>
    by_cases hc : cell.1 < j
    · rw [List.dropWhile_cons_of_pos (by simpa using hc), ih, Memory.get?_cons, if_pos (by omega)]
    · rw [List.dropWhile_cons_of_neg (by simpa using hc)]

/-! ### Writing one byte -/

theorem Memory.get?_insert_same (m : Memory) (i : Nat) (v : Byte) : (m.insert i v).get? i = some v := by
  induction m with
  | nil => simp [Memory.insert, Memory.get?_cons]
  | cons cell rest ih =>
    unfold Memory.insert
    by_cases h : cell.1 < i
    · rw [if_pos h, Memory.get?_cons, if_pos h, ih]
    · rw [if_neg h]
      by_cases h' : cell.1 = i <;> simp [h', Memory.get?_cons]

theorem Memory.get?_insert_other (m : Memory) {i j : Nat} (v : Byte) (h : j ≠ i) :
    (m.insert i v).get? j = m.get? j := by
  induction m with
  | nil => simp [Memory.insert, Memory.get?_cons, Ne.symm h]
  | cons cell rest ih =>
    unfold Memory.insert
    by_cases hc : cell.1 < i
    · rw [if_pos hc, Memory.get?_cons, Memory.get?_cons, ih]
    · rw [if_neg hc]
      by_cases he : cell.1 = i
      · rw [if_pos he, Memory.get?_cons, Memory.get?_cons]
        split <;> simp_all [Ne.symm]
      · rw [if_neg he, Memory.get?_cons]
        by_cases hij : i < j
        · rw [if_pos hij]
        · rw [if_neg hij, if_neg (Ne.symm h), Memory.get?_cons, if_neg (by omega), if_neg (by omega)]

/-! ### Loading a block -/

theorem cellsFrom_length (i : Nat) (bytes : List Byte) : (cellsFrom i bytes).length = bytes.length := by
  induction bytes generalizing i with
  | nil => rfl
  | cons v rest ih => simp [cellsFrom, ih]

theorem get?_cellsFrom_append (bytes : List Byte) (m : Memory) (i k : Nat) (h : i ≤ k) :
    Memory.get? (cellsFrom i bytes ++ m) k =
      if k < i + bytes.length then bytes[k - i]? else Memory.get? m k := by
  induction bytes generalizing i with
  | nil => simp [cellsFrom]; omega
  | cons v rest ih =>
    simp only [cellsFrom, List.cons_append, Memory.get?_cons]
    by_cases hk : i < k
    · rw [if_pos hk, ih (i + 1) (by omega)]
      have e : k - i = (k - (i + 1)) + 1 := by omega
      simp only [List.length_cons, e, List.getElem?_cons_succ]
      congr 1
      simp only [eq_iff_iff]; omega
    · have e : k = i := by omega
      subst e
      simp

theorem Memory.get?_filter_ge (m : Memory) {n k : Nat} (h : n ≤ k) :
    Memory.get? (m.filter fun cell => decide (n ≤ cell.1)) k = Memory.get? m k := by
  induction m with
  | nil => rfl
  | cons cell rest ih =>
    by_cases hc : n ≤ cell.1
    · rw [List.filter_cons_of_pos (by simpa using hc), Memory.get?_cons, Memory.get?_cons, ih]
    · rw [List.filter_cons_of_neg (by simpa using hc), ih, Memory.get?_cons, if_pos (by omega)]

/-- Reading after a load: the loaded bytes, and past them what was there. -/
theorem Memory.get?_load (bytes : List Byte) (m : Memory) (k : Nat) :
    (Memory.load bytes m).get? k = if k < bytes.length then bytes[k]? else m.get? k := by
  unfold Memory.load
  rw [get?_cellsFrom_append _ _ _ _ (Nat.zero_le k)]
  by_cases h : k < bytes.length
  · simp [h]
  · rw [if_neg (by omega), if_neg h, Memory.get?_filter_ge _ (by omega)]

/-! ### Reading a block -/

theorem Memory.block_length (u : Nat → Byte) (i n : Nat) (m : Memory) : (Memory.block u i n m).length = n := by
  induction n generalizing i m with
  | zero => rfl
  | succ n ih => simp [Memory.block, ih]

/-- A block read is the bytes read one by one. -/
theorem Memory.block_getElem? (u : Nat → Byte) (i n : Nat) (m : Memory) (k : Nat) :
    (Memory.block u i n m)[k]? = if k < n then some ((m.get? (i + k)).getD (u (i + k))) else none := by
  induction n generalizing i m k with
  | zero => simp [Memory.block]
  | succ n ih =>
    cases k with
    | zero => simp [Memory.block, Memory.get?_dropWhile m (Nat.le_refl i)]
    | succ k =>
      simp only [Memory.block, List.getElem?_cons_succ, ih, Nat.add_lt_add_iff_right]
      rw [Memory.get?_dropWhile m (by omega), show i + 1 + k = i + (k + 1) by omega]

/-! ### The canonical form -/

theorem Memory.wf_nil (cap : Nat) : Memory.wf cap [] = true := rfl

theorem Memory.wf_iff (cap : Nat) (m : Memory) :
    m.wf cap = true ↔ (m.map Prod.fst).Pairwise (· < ·) ∧ ∀ cell ∈ m, cell.1 < cap := by
  simp [Memory.wf]

theorem Memory.fst_mem_insert {m : Memory} {i : Nat} {v : Byte} {cell : Host.Cell} (h : cell ∈ m.insert i v) :
    cell.1 = i ∨ cell ∈ m := by
  induction m with
  | nil => simp [Memory.insert] at h; simp [h]
  | cons c rest ih =>
    unfold Memory.insert at h
    split at h
    · rcases List.mem_cons.1 h with rfl | h
      · simp
      · rcases ih h with h | h <;> simp [h]
    · split at h
      · rcases List.mem_cons.1 h with rfl | h <;> simp_all
      · rcases List.mem_cons.1 h with rfl | h <;> simp_all

/-- A one-byte write keeps the canonical form. -/
theorem Memory.wf_insert {cap : Nat} {m : Memory} {i : Nat} (v : Byte) (h : m.wf cap = true) (hi : i < cap) :
    (m.insert i v).wf cap = true := by
  rw [Memory.wf_iff] at *
  refine ⟨?_, fun cell hc => (Memory.fst_mem_insert hc).elim (fun e => by omega) (h.2 cell)⟩
  have hs := h.1
  clear h hi
  induction m with
  | nil => simp [Memory.insert]
  | cons c rest ih =>
    simp only [List.map_cons, List.pairwise_cons, List.mem_map] at hs
    unfold Memory.insert
    split
    · next hlt =>
      simp only [List.map_cons, List.pairwise_cons, List.mem_map]
      refine ⟨?_, ih hs.2⟩
      rintro a ⟨x, hx, rfl⟩
      rcases Memory.fst_mem_insert hx with e | hx
      · omega
      · exact hs.1 _ ⟨x, hx, rfl⟩
    · split
      · next he =>
        simp only [List.map_cons, List.pairwise_cons, List.mem_map]
        exact ⟨he ▸ hs.1, hs.2⟩
      · next hlt hne =>
        simp only [List.map_cons, List.pairwise_cons, List.mem_cons, List.mem_map]
        refine ⟨?_, hs⟩
        rintro a (rfl | ⟨x, hx, rfl⟩)
        · omega
        · have := hs.1 _ ⟨x, hx, rfl⟩
          omega

theorem mem_cellsFrom {i : Nat} {bytes : List Byte} {cell : Host.Cell} (h : cell ∈ cellsFrom i bytes) :
    i ≤ cell.1 ∧ cell.1 < i + bytes.length := by
  induction bytes generalizing i with
  | nil => simp [cellsFrom] at h
  | cons v rest ih =>
    rcases List.mem_cons.1 h with rfl | h
    · simp
    · have := ih h
      simp only [List.length_cons]
      omega

theorem pairwise_cellsFrom (i : Nat) (bytes : List Byte) : ((cellsFrom i bytes).map Prod.fst).Pairwise (· < ·) := by
  induction bytes generalizing i with
  | nil => simp [cellsFrom]
  | cons v rest ih =>
    simp only [cellsFrom, List.map_cons, List.pairwise_cons, List.mem_map]
    refine ⟨?_, ih (i + 1)⟩
    rintro a ⟨x, hx, rfl⟩
    have := mem_cellsFrom hx
    omega

/-- A load of at most `cap` bytes keeps the canonical form. -/
theorem Memory.wf_load {cap : Nat} {m : Memory} {bytes : List Byte} (h : m.wf cap = true) (hb : bytes.length ≤ cap) :
    (Memory.load bytes m).wf cap = true := by
  rw [Memory.wf_iff] at *
  unfold Memory.load
  constructor
  · rw [List.map_append, List.pairwise_append]
    refine ⟨pairwise_cellsFrom 0 bytes, h.1.sublist (List.filter_sublist.map _), ?_⟩
    simp only [List.mem_map, List.mem_filter]
    rintro a ⟨x, hx, rfl⟩ b ⟨y, ⟨_, hy⟩, rfl⟩
    have := mem_cellsFrom hx
    have : bytes.length ≤ y.1 := by simpa using hy
    omega
  · intro cell hc
    rcases List.mem_append.1 hc with hc | hc
    · have := mem_cellsFrom hc
      omega
    · exact h.2 cell (List.mem_filter.1 hc).1

end Sys2Proof.Machine
end

