-- ==== Sys2Proof/Laws/Ops.lean ====
section
/-! SUPPORT. What the shared operations do, said once: buffers, MemRead and MemWrite, loads, the capacity check,
completion and command errors. -/

namespace Sys2Proof.Machine

/-! ### The eight buffers -/

@[simp] theorem Buffers.get_set_same (b : Buf) (m : Memory) (bs : Buffers) : (bs.set b m).get b = m := by
  cases b <;> rfl

theorem Buffers.get_set_other {b c : Buf} (m : Memory) (bs : Buffers) (h : c ≠ b) : (bs.set b m).get c = bs.get c := by
  cases b <;> cases c <;> first | rfl | exact absurd rfl h

@[simp] theorem Buffers.get_load_same (b : Buf) (bytes : List Byte) (bs : Buffers) :
    (bs.load b bytes).get b = Memory.load bytes (bs.get b) := by
  simp [Buffers.load]

theorem Buffers.get_load_other {b c : Buf} (bytes : List Byte) (bs : Buffers) (h : c ≠ b) :
    (bs.load b bytes).get c = bs.get c :=
  Buffers.get_set_other _ _ h

@[simp] theorem Buffers.get_unwritten (b : Buf) : Buffers.unwritten.get b = [] := by
  cases b <;> rfl

/-- Every buffer of the reset state is in canonical form. -/
theorem reset_buffers_wf (b : Buf) : (State.reset.bufs.get b).wf b.capacity = true := by
  cases b <;> rfl

/-- A one-byte write inside the capacity keeps every buffer in canonical form. -/
theorem Buffers.wf_insert {bs : Buffers} (h : ∀ c : Buf, (bs.get c).wf c.capacity = true) {b : Buf} {i : Nat} (v : Byte)
    (hi : i < b.capacity) (c : Buf) : ((bs.set b ((bs.get b).insert i v)).get c).wf c.capacity = true := by
  by_cases e : c = b
  · subst e
    rw [Buffers.get_set_same]
    exact Memory.wf_insert v (h c) hi
  · rw [Buffers.get_set_other _ _ e]
    exact h c

/-- A load inside the capacity keeps every buffer in canonical form. -/
theorem Buffers.wf_load {bs : Buffers} (h : ∀ c : Buf, (bs.get c).wf c.capacity = true) {b : Buf} {bytes : List Byte}
    (hb : bytes.length ≤ b.capacity) (c : Buf) : ((bs.load b bytes).get c).wf c.capacity = true := by
  by_cases e : c = b
  · subst e
    rw [Buffers.get_load_same]
    exact Memory.wf_load (h c) hb
  · rw [Buffers.get_load_other _ _ e]
    exact h c

/-! ### MemRead and MemWrite -/

/-- The draws depend on the two reset counts only. -/
theorem State.draw_congr {s t : State} (hp : t.powerOns = s.powerOns) (hr : t.resets = s.resets) (b : Buf) (i : Nat) :
    t.draw b i = s.draw b i := by
  cases b <;> simp [State.draw, hp, hr]

/-- A read depends on its buffer and the two reset counts only. -/
theorem State.readByte_congr {s t : State} {b : Buf} (hb : t.bufs.get b = s.bufs.get b) (hp : t.powerOns = s.powerOns)
    (hr : t.resets = s.resets) (i : Nat) : t.readByte b i = s.readByte b i := by
  simp [State.readByte, hb, State.draw_congr hp hr]

theorem State.readByte_writeByte_same (b : Buf) (i : Nat) (v : Byte) (s : State) :
    (s.writeByte b i v).readByte b i = v := by
  simp [State.readByte, Memory.get?_insert_same]

theorem State.readByte_writeByte_other {b c : Buf} {i j : Nat} (v : Byte) (s : State) (h : c ≠ b ∨ j ≠ i) :
    (s.writeByte b i v).readByte c j = s.readByte c j := by
  by_cases e : c = b
  · subst e
    have hj : j ≠ i := h.resolve_left fun hn => hn rfl
    have hd : (s.writeByte c i v).draw c j = s.draw c j := State.draw_congr rfl rfl c j
    simp [State.readByte, Memory.get?_insert_other _ v hj, hd]
  · refine State.readByte_congr (s := s) (t := s.writeByte b i v) ?_ rfl rfl j
    exact Buffers.get_set_other _ _ e

/-- A byte read after a load of its own buffer: the loaded bytes, and past them what was there. -/
theorem State.readByte_load_same {s t : State} {b : Buf} {bytes : List Byte}
    (hb : t.bufs.get b = Memory.load bytes (s.bufs.get b)) (hp : t.powerOns = s.powerOns) (hr : t.resets = s.resets)
    (i : Nat) : t.readByte b i = if i < bytes.length then bytes.getD i 0 else s.readByte b i := by
  unfold State.readByte
  rw [hb, Memory.get?_load, State.draw_congr hp hr]
  by_cases h : i < bytes.length <;> simp [h]

theorem State.readBlock_length (b : Buf) (n : Nat) (s : State) : (s.readBlock b n).length = n :=
  Memory.block_length _ _ _ _

/-- A block read is the bytes read one by one. -/
theorem State.readBlock_getElem? (b : Buf) (n : Nat) (s : State) (k : Nat) :
    (s.readBlock b n)[k]? = if k < n then some (s.readByte b k) else none := by
  simp [State.readBlock, State.readByte, Memory.block_getElem?]

/-! ### The capacity check -/

theorem overrun?_eq_none_iff (l : List (Buf × Nat)) : overrun? l = none ↔ ∀ x ∈ l, x.2 ≤ x.1.capacity := by
  induction l with
  | nil => simp [overrun?]
  | cons x rest ih =>
    obtain ⟨b, n⟩ := x
    unfold overrun?
    by_cases h : b.capacity < n
    · simp [h]
    · simp [h, ih]; omega

/-! ### Completion -/

/-- What a completed command's answer is: a next state, and which one. -/
theorem finish_eq_next {s t : State} (h : finish s = .next t) : t = s.settle 0 := by
  cases h; rfl

theorem raiseCmdError_eq_next {e : CmdError} {s t : State} (h : raiseCmdError e s = .next t) :
    t = (if e = .capacityMismatch then { s with phase := .fault } else s).settle e.code := by
  cases h; rfl

/-- Every command error but CapacityMismatch leaves the state it found, but for its report. -/
theorem raiseCmdError_of_ne {e : CmdError} (h : e ≠ .capacityMismatch) (s : State) :
    raiseCmdError e s = .next (s.settle e.code) := by
  simp [raiseCmdError, h]

/-- Every command error has a non-zero code, so that ERR is set. -/
theorem CmdError.code_ne_zero (e : CmdError) : e.code ≠ 0 := by
  cases e <;> decide

theorem CmdError.code_le (e : CmdError) : e.code.toNat ≤ 9 := by
  cases e <;> decide

theorem AccError.code_ne_zero (e : AccError) : e.code ≠ 0 := by
  cases e <;> decide

theorem AccError.code_le (e : AccError) : e.code.toNat ≤ 7 := by
  cases e <;> decide

end Sys2Proof.Machine
end

