-- ==== Sys2Proof/Laws/PerInstr.lean ====
section
/-! SUPPORT. A statement for every instruction, one lemma per constructor: the word of a well-formed command matches the
opcode map's row of its mnemonic (30_encoding.md R100: `(w & mask) == match`). -/

namespace Sys2Proof.Laws.RowMatch

open Sys2Proof

/-- The mnemonic of a command (30_encoding.md R100). -/
def mnemonicOf : Instr → String
  | .nop => "NOP"
  | .gfMul _ _ => "GF.MUL"
  | .gfPow _ _ => "GF.POW"
  | .gfExp _ => "GF.EXP"
  | .gfLog _ => "GF.LOG"
  | .rsGen _ => "RS.GEN"
  | .rsDiv _ _ => "RS.DIV"
  | .qrBegin _ _ => "QR.BEGIN"
  | .qrAsm => "QR.ASM"
  | .qrBuild => "QR.BUILD"
  | .qrEval => "QR.EVAL"
  | .qrFinal => "QR.FINAL"

/-- The word of a well-formed command matches the row of its mnemonic. -/
def Statement (i : Instr) : Prop :=
  i.wf = true → ∃ row ∈ opcodeMap, row.mnemonic = mnemonicOf i ∧ encode i &&& row.mask = row.bits

theorem fieldAt_and_of_disjoint {lo value width : Nat} {mask : Word} (h : value < 2 ^ width)
    (hm : ∀ k, k < width → mask.getLsbD (lo + k) = false) : fieldAt lo value &&& mask = 0 := by
  apply BitVec.eq_of_getLsbD_eq
  intro k hk
  simp only [fieldAt, BitVec.getLsbD_and, BitVec.getLsbD_shiftLeft, BitVec.getLsbD_ofNat]
  by_cases hlo : k < lo
  · simp [hlo]
  · by_cases hw : k - lo < width
    · have := hm (k - lo) hw
      rw [show lo + (k - lo) = k by omega] at this
      simp [this]
    · have : value.testBit (k - lo) = false :=
        Nat.testBit_lt_two_pow (lt_of_lt_of_le h (Nat.pow_le_pow_right (by decide) (by omega)))
      simp [this]

theorem one_field {lo value width : Nat} {mask bits : Word} (h : value < 2 ^ width)
    (hm : ∀ k, k < width → mask.getLsbD (lo + k) = false) (hb : bits &&& mask = bits) :
    (fieldAt lo value ||| bits) &&& mask = bits := by
  rw [BitVec.and_comm, BitVec.and_or_distrib_left, BitVec.and_comm, fieldAt_and_of_disjoint h hm, BitVec.and_comm, hb]
  simp

theorem two_fields {lo value width lo' value' width' : Nat} {mask bits : Word} (h : value < 2 ^ width)
    (hm : ∀ k, k < width → mask.getLsbD (lo + k) = false) (h' : value' < 2 ^ width')
    (hm' : ∀ k, k < width' → mask.getLsbD (lo' + k) = false) (hb : bits &&& mask = bits) :
    (fieldAt lo value ||| fieldAt lo' value' ||| bits) &&& mask = bits := by
  rw [BitVec.or_assoc, BitVec.and_comm, BitVec.and_or_distrib_left, BitVec.and_comm mask (fieldAt lo value),
    fieldAt_and_of_disjoint h hm, BitVec.and_comm, one_field h' hm' hb]
  simp

theorem nop : Statement .nop := fun _ => ⟨_, .head _, rfl, rfl⟩

theorem gfMul (a b : Byte) : Statement (.gfMul a b) := fun _ =>
  ⟨_, .tail _ (.head _), rfl, two_fields (width := 8) (width' := 8) b.isLt (by decide) a.isLt (by decide) rfl⟩

theorem gfPow (a : Byte) (e : Nat) : Statement (.gfPow a e) := fun h =>
  ⟨_, .tail _ (.tail _ (.head _)), rfl,
    two_fields (width := 16) (width' := 8) (by simpa [Instr.wf] using h) (by decide) a.isLt (by decide) rfl⟩

theorem gfExp (i : Byte) : Statement (.gfExp i) := fun _ =>
  ⟨_, .tail _ (.tail _ (.tail _ (.head _))), rfl, one_field (width := 8) i.isLt (by decide) rfl⟩

theorem gfLog (a : Byte) : Statement (.gfLog a) := fun _ =>
  ⟨_, .tail _ (.tail _ (.tail _ (.tail _ (.head _)))), rfl, one_field (width := 8) a.isLt (by decide) rfl⟩

theorem rsGen (n : Nat) : Statement (.rsGen n) := fun h =>
  ⟨_, .tail _ (.tail _ (.tail _ (.tail _ (.tail _ (.head _))))), rfl,
    one_field (width := 8) (by simpa [Instr.wf] using h) (by decide) rfl⟩

theorem rsDiv (n len : Nat) : Statement (.rsDiv n len) := fun h => by
  simp only [Instr.wf, Bool.and_eq_true, decide_eq_true_eq] at h
  exact ⟨_, .tail _ (.tail _ (.tail _ (.tail _ (.tail _ (.tail _ (.head _)))))), rfl,
    two_fields (width := 9) (width' := 8) h.2 (by decide) h.1 (by decide) rfl⟩

theorem qrBegin (ver ecl : Nat) : Statement (.qrBegin ver ecl) := fun h => by
  simp only [Instr.wf, Bool.and_eq_true, decide_eq_true_eq] at h
  exact ⟨_, .tail _ (.tail _ (.tail _ (.tail _ (.tail _ (.tail _ (.tail _ (.head _))))))), rfl,
    two_fields (width := 3) (width' := 6) h.2 (by decide) h.1 (by decide) rfl⟩

theorem qrAsm : Statement .qrAsm := fun _ =>
  ⟨_, .tail _ (.tail _ (.tail _ (.tail _ (.tail _ (.tail _ (.tail _ (.tail _ (.head _)))))))), rfl, rfl⟩

theorem qrBuild : Statement .qrBuild := fun _ =>
  ⟨_, .tail _ (.tail _ (.tail _ (.tail _ (.tail _ (.tail _ (.tail _ (.tail _ (.tail _ (.head _))))))))), rfl, rfl⟩

theorem qrEval : Statement .qrEval := fun _ =>
  ⟨_, .tail _ (.tail _ (.tail _ (.tail _ (.tail _ (.tail _ (.tail _ (.tail _ (.tail _ (.tail _ (.head _)))))))))), rfl, rfl⟩

theorem qrFinal : Statement .qrFinal := fun _ =>
  ⟨_, .tail _ (.tail _ (.tail _ (.tail _ (.tail _ (.tail _ (.tail _ (.tail _ (.tail _ (.tail _ (.tail _ (.head _))))))))))),
    rfl, rfl⟩

end Sys2Proof.Laws.RowMatch
end

