-- ==== Sys2Proof/Laws/Step.lean ====
section
/-! SUPPORT. What a step can do, said once: the turns, the completion step, the outcomes of a host transaction. -/

namespace Sys2Proof.Machine

theorem step_of_agenda_nil {s : State} (h : s.agenda = []) : step s = coreTurn s := by
  simp [step, nextTurn, h]

theorem step_of_agenda_cons {s : State} {t : Turn} {rest : List Turn} (h : s.agenda = t :: rest) :
    step s = takeTurn t { s with agenda := rest } := by
  simp [step, nextTurn, h]

theorem coreTurn_of_pending {s : State} {w : Word} (h : s.latch = some w) : coreTurn s = complete w s := by
  simp [coreTurn, h]

theorem coreTurn_of_idle {s : State} (h : s.latch = none) : coreTurn s = .next s := by
  simp [coreTurn, h]

theorem complete_of_decode {w : Word} {i : Instr} (h : decode w = .ok i) (s : State) : complete w s = exec i s := by
  simp [complete, h]

theorem complete_of_illegal {w : Word} {e : DecodeError} (h : decode w = .error e) (s : State) :
    complete w s = raiseCmdError .illegalCommand s := by
  simp [complete, h]

theorem step_of_coreNext {s : State} (h : s.coreNext) : step s = coreTurn { s with agenda := s.agenda.tail } := by
  obtain h | ⟨rest, h⟩ := h
  · have hs : s = { s with agenda := s.agenda.tail } := by cases s; simp_all
    exact (step_of_agenda_nil h).trans (congrArg coreTurn hs)
  · rw [step_of_agenda_cons h, h]; rfl

/-- The outcomes of QR.BUILD: refused by its phase or by the capacity check, or the matrix written (43_matrix.md R190). -/
theorem execQrBuild_cases {s t : State} (h : execQrBuild s = .next t) :
    (s.phase ≠ .assembled ∧ t = s.settle 6) ∨
    (s.phase = .assembled ∧
      capacityMatches (functionMatrix s.params.version.toNat s.params.side.toNat).unsetCount s.params.ncw.toNat = false ∧
      t = { s with phase := .fault }.settle 5) ∨
    (s.phase = .assembled ∧
      capacityMatches (functionMatrix s.params.version.toNat s.params.side.toNat).unsetCount s.params.ncw.toNat = true ∧
      overrun? (buildReach s) = none ∧
      t = { s with
        bufs := s.bufs.load .matrix (buildMatrix s.params.version.toNat s.params.side.toNat
          (s.readBlock .cw s.params.ncw.toNat)).flatten
        phase := .matrixBuilt }.settle 0) := by
  by_cases hp : s.phase = .assembled
  · by_cases hc : capacityMatches (functionMatrix s.params.version.toNat s.params.side.toNat).unsetCount
        s.params.ncw.toNat = true
    · cases ho : overrun? (buildReach s) with
      | some b => simp [execQrBuild, hp, hc, ho] at h
      | none => exact .inr (.inr ⟨hp, hc, rfl, by simpa [execQrBuild, hp, hc, ho, finish] using h.symm⟩)
    · exact .inr (.inl ⟨hp, Bool.eq_false_iff.mpr hc,
        by simpa [execQrBuild, hp, hc, raiseCmdError, CmdError.code] using h.symm⟩)
  · exact .inl ⟨hp, by simpa [execQrBuild, hp, raiseCmdError, CmdError.code] using h.symm⟩

/-- The outcomes of an access of BUF_DATA past the Busy check. -/
theorem accessPort_cases {k : AccessKind} {w : Word} {s t : State} (h : accessPort k w s = .next t) :
    (∃ e, portCheck k s = .error e ∧ t = (rejectAccess e k s).advance) ∨
    (∃ b, portCheck k s = .ok b ∧ s.bufAddr.toNat < b.capacity ∧ k = .read ∧
      t = { s with busData := regField 0 (s.readByte b s.bufAddr.toNat) }.advance) ∨
    (∃ b, portCheck k s = .ok b ∧ s.bufAddr.toNat < b.capacity ∧ k = .write ∧
      t = (s.writeByte b s.bufAddr.toNat (w.setWidth 8)).advance) := by
  unfold accessPort at h
  split at h
  · next e he => exact .inl ⟨e, he, by cases h; rfl⟩
  · next b hb =>
    split at h
    · cases h
    · next hc =>
      cases k
      · exact .inr (.inl ⟨b, hb, by omega, rfl, by cases h; rfl⟩)
      · exact .inr (.inr ⟨b, hb, by omega, rfl, by cases h; rfl⟩)

/-- The outcomes of one host transaction: rejected before the port, a port access, a register read, a register write. -/
theorem access_cases {a : Access} {s t : State} (h : access a s = .next t) :
    (∃ e, t = rejectAccess e a.kind s) ∨
    (csrAt? a.offset.toNat = some .bufData ∧ s.busy = false ∧ accessPort a.kind a.data s = .next t) ∨
    (∃ r, csrAt? a.offset.toNat = some r ∧ r ≠ .bufData ∧ a.kind = .read ∧ t = { s with busData := readCsr r s }) ∨
    (∃ r, csrAt? a.offset.toNat = some r ∧ r ≠ .bufData ∧ r.readOnly = false ∧ a.kind = .write ∧
      (s.busy = true → r = .ctrl ∨ r = .status ∨ r = .irqen) ∧ t = writeCsr r a.data s) := by
  unfold access at h
  split at h
  · exact .inl ⟨_, by cases h; rfl⟩
  · split at h
    · exact .inl ⟨_, by cases h; rfl⟩
    · next r hr =>
      split at h
      · exact .inl ⟨_, by cases h; rfl⟩
      · next hb =>
        split at h
        · exact .inl ⟨_, by cases h; rfl⟩
        · next hro =>
          split at h
          · next hd =>
            subst hd
            refine .inr (.inl ⟨hr, ?_, h⟩)
            cases hk : a.kind <;> simp_all [allowedWhileBusy]
          · next hd =>
            split at h
            · next hk => exact .inr (.inr (.inl ⟨r, hr, hd, hk, by cases h; rfl⟩))
            · next hk =>
              refine .inr (.inr (.inr ⟨r, hr, hd, ?_, hk, ?_, by cases h; rfl⟩))
              · simpa [hk] using hro
              · intro hbusy
                have h' : ¬r = .ctrl → ¬r = .status → r = .irqen := by simpa [hk, allowedWhileBusy, hbusy] using hb
                tauto

/-- A soft reset is accepted in every state (70_reset_and_hazards.md R322). -/
theorem access_of_isSoftReset {a : Access} (h : a.isSoftReset = true) (s : State) : access a s = .next (softReset s) := by
  obtain ⟨kind, width, offset, data⟩ := a
  simp only [Access.isSoftReset, decide_eq_true_eq] at h
  obtain ⟨rfl, rfl, rfl, hd⟩ := h
  simp only [access, show csrAt? (Csr.ctrl.offset).toNat = some .ctrl by decide]
  rw [if_neg (by decide), if_neg (by simp [allowedWhileBusy]), if_neg (by simp [Csr.readOnly]), if_neg (by decide)]
  simp [writeCsr, hd]

theorem step_of_resetNext {s : State} (h : s.resetNext) :
    ∃ rest, step s = .next (hardReset { s with agenda := rest }) ∨ step s = .next (softReset { s with agenda := rest }) := by
  obtain ⟨rest, h | ⟨a, ha, h⟩⟩ := h
  · exact ⟨rest, .inl (step_of_agenda_cons h)⟩
  · exact ⟨rest, .inr ((step_of_agenda_cons h).trans (access_of_isSoftReset ha _))⟩

end Sys2Proof.Machine
end

