-- ==== Sys2Proof/Tests/Slice0.lean ====
section
/-! SUPPORT. The model's own tests, with expected values from the spec's vectors (95_test_vectors.md), and the witnesses
that meet the hypotheses of the statements. -/

namespace Sys2Proof.Tests

open Sys2Proof Sys2Proof.Machine

/-- What `f` reads from the state a result goes on in. -/
def after {α : Type} (f : State → α) : Result → Option α
  | .next t => some (f t)
  | .fault _ => none
  | .refused _ => none

/-- The state right after reset, with the word `w` pending. -/
def pending (w : Word) : State :=
  { State.reset with latch := some w, lastCmd := w }

/-- The state right after reset, with a legal symbol in phase `p`. -/
def inPhase (p : Phase) (v e : Nat) : State :=
  { State.reset with phase := p, params := paramsOf v e }

/-- A 32-bit host read. -/
def readAt (offset : BitVec 8) : Access :=
  { kind := .read, width := 32, offset := offset, data := 0 }

/-- A 32-bit host write. -/
def writeAt (offset : BitVec 8) (data : Word) : Access :=
  { kind := .write, width := 32, offset := offset, data := data }

/-! ### WellFormed: an ill-formed term for each check -/

theorem test_wf_pow_exponent : (Instr.gfPow 2 65536).wf = false := by decide
theorem test_wf_gen_degree : (Instr.rsGen 256).wf = false := by decide
theorem test_wf_div_degree : (Instr.rsDiv 256 1).wf = false := by decide
theorem test_wf_div_length : (Instr.rsDiv 10 512).wf = false := by decide
theorem test_wf_begin_version : (Instr.qrBegin 64 0).wf = false := by decide
theorem test_wf_begin_level : (Instr.qrBegin 1 8).wf = false := by decide
theorem test_wf_largest_operands :
    (Instr.gfPow 255 65535).wf ∧ (Instr.rsGen 255).wf ∧ (Instr.rsDiv 255 511).wf ∧ (Instr.qrBegin 63 7).wf := by decide

/-! ### Decode: words of 30_encoding.md R110 and 95_test_vectors.md §8 -/

theorem test_decode_nop : decode 0x00000000 = .ok .nop := by decide
theorem test_decode_gf_mul : decode 0b00000000110010100101001100000001 = .ok (.gfMul 0x53 0xCA) := by decide
theorem test_decode_gf_pow : decode 0b00000000111111110000001000000010 = .ok (.gfPow 2 255) := by decide
theorem test_decode_gf_exp : decode 0b00000000000000000000100000000011 = .ok (.gfExp 8) := by decide
theorem test_decode_gf_log : decode 0b00000000000000000001110100000100 = .ok (.gfLog 0x1D) := by decide
theorem test_decode_rs_gen : decode 0b00000000000000000000011100010000 = .ok (.rsGen 7) := by decide
theorem test_decode_rs_div : decode 0b00000001000000000001111000010001 = .ok (.rsDiv 30 256) := by decide
theorem test_decode_qr_begin : decode 0b00000000000000110010100000100000 = .ok (.qrBegin 40 3) := by decide
theorem test_decode_qr_asm : decode 0x00000021 = .ok .qrAsm := by decide
theorem test_decode_qr_build : decode 0x00000022 = .ok .qrBuild := by decide
theorem test_decode_qr_eval : decode 0x00000023 = .ok .qrEval := by decide
theorem test_decode_qr_final : decode 0x00000024 = .ok .qrFinal := by decide

theorem test_decode_reserved_bits :
    ([0x00000100, 0x01CA5301, 0x00010003, 0x00010004, 0x00011E10, 0x02000011, 0x00004120, 0x00080120, 0x00012921,
      0x80000022, 0x00000123, 0x00000124].all fun w => decide (decode w = .error .reservedBit)) = true := by decide

theorem test_decode_unassigned :
    ([0x00000005, 0x0000000F, 0x00000012, 0x0000001F, 0x00000025, 0x000000FF].all fun w =>
      decide (decode w = .error .unassignedOpcode)) = true := by decide

theorem test_rows_do_not_overlap :
    opcodeMap.Pairwise fun a b => a.bits &&& a.mask &&& b.mask ≠ b.bits &&& a.mask &&& b.mask := by decide

theorem test_table_word : decodeTableWord 32 0x00CA5301 = some (.gfMul 0x53 0xCA) := by decide

/-! ### NOP and the GF unit (95_test_vectors.md §6, §8) -/

theorem test_nop_reports : after (fun t => (t.errcode, t.done, t.err, t.busy)) (step (pending 0)) =
    some (0, true, false, false) := by decide

theorem test_gf_mul : after State.gfres (exec (.gfMul 0x57 0x83) State.reset) = some 0x31 := by decide
theorem test_gf_mul_zero : after State.gfres (exec (.gfMul 0x57 0x00) { State.reset with gfres := 9 }) = some 0 := by decide
theorem test_gf_pow : after State.gfres (exec (.gfPow 0x1D 3) State.reset) = some 0x8F := by decide
theorem test_gf_pow_zero_zero : after State.gfres (exec (.gfPow 0 0) State.reset) = some 1 := by decide
theorem test_gf_exp : after State.gfres (exec (.gfExp 255) { State.reset with gfres := 9 }) = some 1 := by decide
theorem test_gf_log : after State.gfres (exec (.gfLog 0xFF) State.reset) = some 175 := by decide
theorem test_gf_log_zero : after (fun t => (t.gfres, t.errcode, t.err)) (exec (.gfLog 0) { State.reset with gfres := 9 }) =
    some (9, 9, true) := by decide

/-! ### The RS unit (41_rs.md R145, R146) -/

theorem test_rs_gen : after (fun t => (t.readBlock .gen 11, t.eccount, t.genv, t.rsv))
    (exec (.rsGen 10) { State.reset with rsv := true }) =
    some ([0x01, 0xD8, 0xC2, 0x9F, 0x6F, 0xC7, 0x5E, 0x5F, 0x71, 0x9D, 0xC1], 10, true, false) := by decide +kernel

theorem test_rs_gen_too_high : after (fun t => (t.errcode, t.eccount, t.genv)) (exec (.rsGen 31) State.reset) =
    some (7, 0, false) := by decide

/-- The data codewords of HELLO WORLD (41_rs.md R146). -/
def helloRsin : State :=
  { State.reset with
    bufs := Buffers.unwritten.load .rsin [32, 91, 11, 120, 209, 114, 220, 77, 67, 64, 236, 17, 236, 17, 236, 17] }

theorem test_rs_div : after (fun t => (t.readBlock .rsout 10, t.rsv)) (exec (.rsDiv 10 16) helloRsin) =
    some ([196, 35, 39, 119, 235, 215, 231, 226, 93, 23], true) := by decide +kernel

theorem test_rs_div_degree_before_length : after State.errcode (exec (.rsDiv 31 0) State.reset) = some 7 := by decide

theorem test_fetch_word : after State.gfres (step (State.reset.withFetchWord 32 0x00CA5301)) = some 0x8F := by decide

/-! ### The pipeline (95_test_vectors.md §3 to §5) -/

theorem test_qr_begin : after (fun t => (readCsr .side t, readCsr .ndata t, readCsr .blocks t, t.phase))
    (exec (.qrBegin 1 2) State.reset) = some (21, 13, 0x0D010D01, .segmented) := by decide

theorem test_qr_begin_version_before_level : after (fun t => (t.errcode, t.phase)) (exec (.qrBegin 41 7) State.reset) =
    some (2, .unsegmented) := by decide

/-- HELLO WORLD, to be assembled at 1-Q (42_assemble.md R163). -/
def helloBits : State :=
  { inPhase .segmented 1 2 with
    bitlen := 74
    bufs := Buffers.unwritten.load .bits [0x20, 0x5B, 0x0B, 0x78, 0xD1, 0x72, 0xDC, 0x4D, 0x43, 0x40] }

theorem test_qr_asm : after (fun t => (t.readBlock .cw 26, t.phase)) (exec .qrAsm helloBits) =
    some ([32, 91, 11, 120, 209, 114, 220, 77, 67, 64, 236, 17, 236, 168, 72, 22, 82, 217, 54, 156, 0, 46, 15, 180, 122, 16],
      .assembled) := by decide +kernel

theorem test_qr_asm_too_long : after (fun t => (t.errcode, t.phase)) (exec .qrAsm { helloBits with bitlen := 105 }) =
    some (4, .segmented) := by decide

/-- HELLO WORLD's codewords, to be built at 1-Q (42_assemble.md R163). -/
def helloCodewords : State :=
  { inPhase .assembled 1 2 with
    bufs := Buffers.unwritten.load .cw
      [32, 91, 11, 120, 209, 114, 220, 77, 67, 64, 236, 17, 236, 168, 72, 22, 82, 217, 54, 156, 0, 46, 15, 180, 122, 16] }

/-- The first codeword, 32, goes upward from the bottom-right corner: its third bit is dark (43_matrix.md R206). -/
theorem test_qr_build : after (fun t => (t.phase, t.matrixCell 20 20, t.matrixCell 19 20, t.matrixCell 13 8))
    (exec .qrBuild helloCodewords) = some (.matrixBuilt, 0b010, 0b011, 0b111) := by decide +kernel

/-- The capacity check comes before CW is read: an NCW past CW's capacity is a mismatch too (60_exceptions.md R285). -/
theorem test_qr_build_mismatch : after (fun t => (t.errcode, t.phase))
    (exec .qrBuild { inPhase .assembled 1 2 with params := { paramsOf 1 2 with ncw := 4000 } }) = some (5, .fault) := by
  decide +kernel

/-- A light square of side 5: by hand, ten lines of one run of 5 (3 each), sixteen 2×2 windows (3 each), no dark module
(44_mask.md R225, R226, R228). -/
def lightSquare : State :=
  { State.reset with
    phase := .matrixBuilt
    params := { Params.zero with side := 5 }
    bufs := Buffers.unwritten.load .matrix (List.replicate 25 (funcCell false)) }

theorem test_qr_eval : after (fun t => (t.scores.selp[0].toNat, t.scores.selp[1].toNat, t.scores.selp[3].toNat,
      t.scores.pen[7].toNat, t.scores.mask.toNat, t.phase)) (exec .qrEval lightSquare) =
    some (30, 48, 90, 168, 0, .scored) := by decide +kernel

theorem test_qr_eval_phase : after State.errcode (exec .qrEval { lightSquare with phase := .scored }) = some 6 := by decide

/-- 1-Q with mask 6, format word 0x2EDA (44_mask.md R239); bit 14 is light and bit 13 dark in copy A. -/
def scoredHello : State :=
  { inPhase .scored 1 2 with scores := { Scores.zero with mask := 6 } }

theorem test_qr_final : after (fun t => (t.format, t.verinfo, t.matrixCell 8 0, t.matrixCell 8 1, t.phase))
    (exec .qrFinal scoredHello) = some (0x2EDA, 0, 0b110, 0b111, .finalized) := by decide +kernel

theorem test_qr_final_version_word : after State.verinfo (exec .qrFinal (inPhase .scored 7 0)) = some 0x07C94 := by
  decide +kernel

theorem test_mask_functions : (List.range 8).map (fun k => maskFlips k 2 3) =
    [false, true, true, false, true, true, true, false] := by decide

theorem test_rule4_boundaries : [rule4 45 100, rule4 44 100, rule4 40 100, rule4 0 100, rule4 100 100] =
    [0, 10, 10, 90, 90] := by decide

/-! ### The host bus and the interrupt line (95_test_vectors.md §8) -/

theorem test_read_id : after State.busData (access (readAt 0x00) State.reset) = some 0x51524331 := by decide

theorem test_narrow_read : after (fun t => (t.acccode, t.accErr)) (access { readAt 0x00 with width := 8 } State.reset) =
    some (3, true) := by decide

theorem test_unmapped_read : after (fun t => (t.acccode, t.busData)) (access (readAt 0x5C) { State.reset with busData := 7 }) =
    some (2, 0) := by decide

theorem test_busy_before_read_only : after State.acccode (access (writeAt 0x48 0) (pending 0)) = some 1 := by decide

theorem test_port_reserved_selector : after (fun t => (t.acccode, t.bufAddr))
    (access (readAt 0x58) { State.reset with bufSel := 9 }) = some (7, 1) := by decide

theorem test_port_read_only_first : after (fun t => (t.acccode, t.bufAddr))
    (access (writeAt 0x58 0) { State.reset with bufSel := 2 }) = some (4, 1) := by decide

theorem test_port_last_byte : after (fun t => (t.readByte .bits 2955, t.bufAddr))
    (access (writeAt 0x58 0xAB) { State.reset with bufAddr := 2955 }) = some (0xAB, 2956) := by decide

theorem test_port_address_wraps : after (fun t => (t.acccode, t.bufAddr))
    (access (readAt 0x58) { State.reset with bufSel := 5, bufAddr := 0xFFFF }) = some (5, 0) := by decide

theorem test_write_irqen_while_busy : after (fun t => (t.irqenWord, t.acccode, t.busy))
    (access (writeAt 0x0C 0xFFFFFFFF) (pending 0)) = some (0x0000000E, 0, true) := by decide

theorem test_write_cmd_while_busy : after (fun t => (t.acccode, t.lastCmd)) (access (writeAt 0x10 0x21) (pending 0)) =
    some (1, 0) := by decide

theorem test_soft_reset_discards : after (fun t => (t.latch, t.bufs.rsin, t.lastCmd)) (access (writeAt 0x04 1)
    { pending 0x21 with bufs := Buffers.unwritten.load .rsin [9] }) = some (none, [(0, 9)], 0) := by decide

theorem test_irq_on_error : after State.irq (exec (.gfLog 0) { State.reset with irqen := ⟨false, true, false⟩ }) =
    some true := by decide

theorem test_irq_off_on_success : after State.irq (exec .nop { State.reset with irqen := ⟨false, true, false⟩ }) =
    some false := by decide

/-! ### The assembler (30_encoding.md R104 to R109) -/

theorem test_assembler_line : parseLine? "go: gf.mul 0x53, 0xCA ; product" =
    some { label := some ['g', 'o'], statement := .command (.gfMul 0x53 0xCA) } := by decide +kernel

theorem test_assembler_names : parseLine? "QR.BEGIN 1, Q" = some { label := none, statement := .command (.qrBegin 1 2) } ∧
    parseLine? "WR BITLEN, 0b11" = some { label := none, statement := .wr 0x1C 3 } := by decide +kernel

theorem test_unmapped_offset_assembles : parseLine? "RD 0x5D" = some { label := none, statement := .rd 0x5D } := by
  decide +kernel

theorem test_reserved_selector_assembles : parseLine? "GETB 9, 0, 1" = some { label := none, statement := .getb 9 0 1 } ∧
    Statement.expand? (.getb 9 0 1) = some [.write 0x50 9, .write 0x54 0, .read 0x58] ∧
    Statement.expand? (.getb 16 0 1) = none := by decide +kernel

theorem test_putb_without_bytes : parseLine? "PUTB BITS, 7" = some { label := none, statement := .putb 0 7 [] } ∧
    Statement.expand? (.putb 0 7 []) = some [.write 0x50 0, .write 0x54 7] := by decide +kernel

theorem test_rsenc_expands : Statement.expand? (.rsenc 1 [5]) =
    some [.write 0x50 5, .write 0x54 0, .write 0x58 5, .write 0x10 0x00010111, .wait, .write 0x50 6, .write 0x54 0,
      .read 0x58] := by decide

/-! ### Witnesses: states and operands that meet the hypotheses of the statements -/

theorem witness_encoded_command : (Instr.rsDiv 255 511).wf = true ∧ (Instr.qrBegin 63 7).wf = true := by decide

theorem witness_decoded_word : decode 0xFFFF0002 = .ok (.gfPow 0 65535) := by decide

theorem witness_row : (∃ row ∈ opcodeMap, 0x00CA5301 &&& row.mask = row.bits) ∧
    (∀ row ∈ opcodeMap, 0x00000025#32 &&& row.mask ≠ row.bits) := by decide

/-- The first and last value of each range of unassigned opcodes, and a reserved bit. -/
theorem witness_illegal_word :
    ([0x05, 0x0F, 0x12, 0x1F, 0x25, 0xFF].all fun w : Word =>
      let op := (w.byteAt 0).toNat
      decide ((0x05 ≤ op ∧ op ≤ 0x0F) ∨ (0x12 ≤ op ∧ op ≤ 0x1F) ∨ 0x25 ≤ op)) = true ∧
    (∃ row ∈ opcodeMap, row.bits.byteAt 0 = (0x00040021 : Word).byteAt 0 ∧ 0x00040021 &&& row.mask ≠ row.bits) := by decide

theorem witness_step_runs_pending :
    ((pending 0x21).latch = some 0x21 ∧ decode 0x21 = .ok .qrAsm ∧ (pending 0x21).agenda = []) ∧
    { pending 0x21 with agenda := [.core] }.agenda = .core :: [] := by decide

theorem witness_turns :
    { State.reset with agenda := [.host (readAt 0)] }.agenda = .host (readAt 0) :: [] ∧
    ({ State.reset with agenda := [.core] }.agenda = .core :: [] ∧ State.reset.latch = none) ∧
    { State.reset with agenda := [.hardReset] }.agenda = .hardReset :: [] ∧
    (State.reset.agenda = [] ∧ State.reset.latch = none) ∧
    ((pending 0x25).latch = some 0x25 ∧ (pending 0x25).agenda = []) ∧
    { pending 0x25 with agenda := [.core] }.agenda = .core :: [] ∧
    { State.reset with agenda := [.host (writeAt 0x10 0x25), .core] }.agenda =
      .host { kind := .write, width := 32, offset := 0x10, data := 0x25 } :: .core :: [] ∧
    (Instr.rsGen 7).wf = true ∧
    { State.reset with agenda := [writeTurn 0x10 0x710, .core] }.agenda =
      writeTurn 0x10 (encode (.rsGen 7)).toNat :: .core :: [] := by decide

theorem witness_host_while_busy :
    (pending 0x21).busy = true ∧
    ∀ a ∈ [writeAt 0x08 0xE, writeAt 0x0C 2, readAt 0x58, writeAt 0x04 2, writeAt 0x10 0], a.isSoftReset = false := by
  decide

theorem witness_completion :
    complete 0x00CA5301 State.reset = .next { State.reset with gfres := 0x8F, done := true } ∧
    complete 0x21 State.reset = .next { State.reset with errcode := 6, done := true, err := true } := ⟨rfl, rfl⟩

theorem witness_reserved_bits :
    ((0x00000100 : Word).byteAt 0 = 0x00 ∧ (0x00000100 : Word).field 31 8 ≠ 0) ∧
    ((0x00CA5301 : Word).byteAt 0 = 0x01 ∧ (0x00CA5301 : Word).byteAt 24 = 0) ∧
    ((0x01CA5301 : Word).byteAt 0 = 0x01 ∧ (0x01CA5301 : Word).byteAt 24 ≠ 0) ∧
    (0xFFFF0002 : Word).byteAt 0 = 0x02 ∧
    ((0x00000803 : Word).byteAt 0 = 0x03 ∧ (0x00000803 : Word).field 31 16 = 0) ∧
    ((0x00010003 : Word).byteAt 0 = 0x03 ∧ (0x00010003 : Word).field 31 16 ≠ 0) ∧
    ((0x00001D04 : Word).byteAt 0 = 0x04 ∧ (0x00001D04 : Word).field 31 16 = 0) ∧
    ((0x00010004 : Word).byteAt 0 = 0x04 ∧ (0x00010004 : Word).field 31 16 ≠ 0) ∧
    ((0x00000710 : Word).byteAt 0 = 0x10 ∧ (0x00000710 : Word).field 31 16 = 0) ∧
    ((0x00011E10 : Word).byteAt 0 = 0x10 ∧ (0x00011E10 : Word).field 31 16 ≠ 0) ∧
    ((0x01001E11 : Word).byteAt 0 = 0x11 ∧ (0x01001E11 : Word).field 31 25 = 0) ∧
    ((0x02000011 : Word).byteAt 0 = 0x11 ∧ (0x02000011 : Word).field 31 25 ≠ 0) ∧
    ((0x00032820 : Word).byteAt 0 = 0x20 ∧ (0x00032820 : Word).field 15 14 = 0 ∧ (0x00032820 : Word).field 31 19 = 0) ∧
    ((0x00004120 : Word).byteAt 0 = 0x20 ∧ (0x00004120 : Word).field 15 14 ≠ 0) ∧
    ((0x00080120 : Word).byteAt 0 = 0x20 ∧ (0x00080120 : Word).field 31 19 ≠ 0) := by decide

/-- Field elements that meet the hypotheses about them: a non-zero element, and logarithms. -/
theorem witness_field_elements :
    (0x53 : Byte) ≠ 0 ∧ gfLog? 0x53 = some 206 ∧ gfLog? 0xCA = some 73 ∧ (0 : Nat) < 1 ∧ 253 < 254 := by decide

theorem witness_rs_degrees : (30 ≤ 30 ∧ 29 < 30) ∧ 30 < 31 ∧ (30 ≤ 30 ∧ 1 ≤ 256 ∧ 256 ≤ 256) ∧ (30 ≤ 30 ∧ 256 < 257) := by
  decide

theorem witness_equal_lengths : ([1, 2] : List Byte).length = ([3, 4] : List Byte).length := by decide

theorem witness_versions_and_levels :
    (1 ≤ 1 ∧ 1 ≤ 40 ∧ 3 ≤ 3) ∧ (1 ≤ 40 ∧ 40 ≤ 40) ∧ 0 < 1 ∧ 40 < 41 ∧ 3 < 4 ∧ 39 ≤ 39 := by decide

/-- A stream that fills its capacity, and an empty one with terminator, alignment and pad bytes. -/
theorem witness_padding :
    (List.replicate 8 true).length ≤ 8 * 1 ∧
    (([] : List Bool).length ≤ 8 * 2 ∧ ([] : List Bool).length ≤ 7 ∧ 7 < 8 * ceilDiv8 4 ∧ ceilDiv8 4 + 0 < 2) := by decide

/-- 5-Q has two short and two long blocks. -/
theorem witness_interleaving :
    (1 ≤ 5 ∧ 5 ≤ 40 ∧ 2 ≤ 3 ∧ ([] : List Bool).length ≤ 8 * ndataOf 5 2) ∧ nbOf 5 2 = 4 ∧ nshortOf 5 2 = 2 ∧
    (14 < dshortOf 5 2 ∧ 3 < nbOf 5 2) ∧ (nshortOf 5 2 ≤ 2 ∧ 2 < nbOf 5 2) ∧ 17 < ecbOf 5 2 := by decide

theorem inPhase_paramsAgree (p : Phase) (v e : Nat) (hp : p ≠ .unsegmented) (hv : 1 ≤ v ∧ v ≤ 40) (he : e ≤ 3) :
    ParamsAgree (inPhase p v e) :=
  .inr ⟨hp, v, e, hv.1, hv.2, he, rfl⟩

theorem witness_qr_asm :
    (helloBits.phase = .segmented ∧ ParamsAgree helloBits ∧ helloBits.bitlen.toNat ≤ 8 * helloBits.params.ndata.toNat) ∧
    ({ helloBits with bitlen := 105 }.phase = .segmented ∧
      8 * { helloBits with bitlen := 105 }.params.ndata.toNat < { helloBits with bitlen := 105 }.bitlen.toNat) :=
  ⟨⟨rfl, .inr ⟨by decide, 1, 2, by decide, by decide, by decide, rfl⟩, by decide⟩, by decide⟩

theorem witness_phases :
    (exec (.qrBegin 1 2) State.reset = .next { (inPhase .segmented 1 2) with done := true } ∧ State.reset.errcode = 0) ∧
    ((Instr.qrAsm, Phase.segmented) ∈ [(Instr.qrAsm, Phase.segmented)] ∧ State.reset.phase ≠ .segmented) :=
  ⟨⟨rfl, rfl⟩, by decide⟩

/-- A step by each kind of turn that the statements about PHASE tell apart: a completion, an illegal word, and the two
resets. -/
theorem witness_phase_steps :
    ((pending 0x00020120).coreNext ∧ decode 0x00020120 = .ok (.qrBegin 1 2) ∧
      ∃ t, step (pending 0x00020120) = .next t ∧ t.phase = .segmented) ∧
    (∃ t, step (pending 0x25) = .next t ∧ t.phase = (pending 0x25).phase) ∧
    ({ inPhase .finalized 1 2 with agenda := [.hardReset] }.resetNext ∧
      ∃ t, step { inPhase .finalized 1 2 with agenda := [.hardReset] } = .next t) ∧
    ({ inPhase .finalized 1 2 with agenda := [.host (writeAt 0x04 1)] }.resetNext ∧
      ∃ t, step { inPhase .finalized 1 2 with agenda := [.host (writeAt 0x04 1)] } = .next t) :=
  ⟨⟨.inl rfl, by decide, _, rfl, rfl⟩, ⟨_, rfl, rfl⟩, ⟨⟨[], .inl rfl⟩, _, rfl⟩,
    ⟨[], .inr ⟨writeAt 0x04 1, by decide, rfl⟩⟩, _, rfl⟩

theorem witness_finalized :
    ((inPhase .finalized 1 2).phase = .finalized ∧ step (inPhase .finalized 1 2) = .next (inPhase .finalized 1 2)) ∧
    Instr.qrEval ∈ [Instr.qrAsm, .qrBuild, .qrEval, .qrFinal] :=
  ⟨⟨rfl, rfl⟩, by decide⟩

/-- Version 7, side 45: a module of a finder, of each timing line, of an alignment pattern, the dark module, and a module
in none of them. -/
theorem witness_function_patterns :
    sideOf 7 = 45 ∧ chebyshev 3 41 7 37 ≤ 4 ∧ (8 ≤ 36 ∧ 36 ≤ 45 - 9) ∧
    ((6, 22) ∈ (((alignCentres 7).flatMap fun a => (alignCentres 7).map fun b => (a, b)).filter (fun p =>
      p ∉ [(6, 6), (6, 45 - 7), (45 - 7, 6)])) ∧ chebyshev 6 22 8 24 ≤ 2) ∧ 37 = 45 - 8 ∧
    (10, 10) ∉ infoCells 7 45 ∧ (8, 0) ∈ infoCells 7 45 := by decide +kernel

/-- The last module of the last column pair of version 1, and the pairs on both sides of column 6. -/
theorem witness_zigzag_places :
    (2 * 9 + 1 < sideOf 1 ∧ 20 < sideOf 1) ∧ 6 < sideOf 1 - 1 - 2 * 6 ∧ ¬ 6 < sideOf 1 - 1 - 2 * 7 := by decide

theorem witness_first_data_module :
    ((zigzag (sideOf 1)).filter fun p => (functionMatrix 1 (sideOf 1)).cell p.1 p.2 = cellUnset)[0]? = some (20, 20) := by
  decide +kernel

theorem witness_built_cell :
    0 < sideOf 1 ∧ (functionMatrix 1 (sideOf 1)).cell 0 0 ≠ cellUnset ∧
    (functionMatrix 1 (sideOf 1)).cell 20 20 = cellUnset := by decide +kernel

theorem witness_qr_build :
    helloCodewords.phase = .assembled ∧ ParamsAgree helloCodewords ∧
    capacityMatches (functionMatrix helloCodewords.params.version.toNat helloCodewords.params.side.toNat).unsetCount
      helloCodewords.params.ncw.toNat = true :=
  ⟨rfl, .inr ⟨by decide, 1, 2, by decide, by decide, by decide, rfl⟩, by decide +kernel⟩

/-- A state of phase ASSEMBLED whose NCW is not the version's. -/
def mismatched : State :=
  { inPhase .assembled 1 2 with params := { paramsOf 1 2 with ncw := 25 } }

theorem witness_capacity_mismatch :
    (mismatched.phase = .assembled ∧
      208 = (functionMatrix mismatched.params.version.toNat mismatched.params.side.toNat).unsetCount ∧
      ¬ (8 * mismatched.params.ncw.toNat ≤ 208 ∧ 208 ≤ 8 * mismatched.params.ncw.toNat + 7)) ∧
    { mismatched with phase := .fault }.phase = .fault ∧ (1 ≤ 40 ∧ 40 ≤ 40) := by decide +kernel

theorem witness_step_in_fault : { mismatched with phase := .fault }.phase = .fault ∧
    ∃ t, step { mismatched with phase := .fault } = .next t := ⟨rfl, _, rfl⟩

theorem witness_masking :
    cellReserved ≠ dataCell false ∧ cellReserved ≠ dataCell true ∧
    (Matrix.cell [[funcCell true]] 0 0).getLsbD 2 = true := by decide

theorem witness_square : ([[true, false], [false, true]] : List (List Bool)).length = 2 ∧
    ∀ row ∈ ([[true, false], [false, true]] : List (List Bool)), row.length = 2 := by decide

theorem witness_rule4 : 0 < 100 ∧ 45 ≤ 100 := by decide

theorem witness_selection : ([3, 1, 1, 2] : List Nat) ≠ [] ∧ 1 < ([3, 1, 1, 2] : List Nat).length := by decide

theorem witness_qr_eval : lightSquare.phase = .matrixBuilt ∧ lightSquare.params.side.toNat ≤ 177 ∧
    (inPhase .matrixBuilt 40 0).params.side.toNat = 177 := by decide

/-- With version information (version 7) and without it (version 1); a module outside the information cells. -/
theorem witness_qr_final :
    ((inPhase .scored 7 0).phase = .scored ∧ ParamsAgree (inPhase .scored 7 0) ∧
      7 ≤ (inPhase .scored 7 0).params.version.toNat) ∧
    ((inPhase .scored 1 2).phase = .scored ∧ ParamsAgree (inPhase .scored 1 2) ∧ (0, 0) ∉ infoCells 1 21) :=
  ⟨⟨rfl, inPhase_paramsAgree _ _ _ (by decide) (by decide) (by decide), by decide⟩, rfl,
    inPhase_paramsAgree _ _ _ (by decide) (by decide) (by decide), by decide⟩

theorem witness_version_word_below_seven : 6 < 7 := by decide

theorem witness_command_families :
    (Instr.gfExp 8 ∉ [Instr.qrAsm, .qrBuild, .qrEval, .qrFinal] ∧
      exec (.gfExp 8) State.reset = .next { State.reset with gfres := 0x1D, done := true }) ∧
    (Instr.qrAsm ∈ [Instr.qrAsm, .qrBuild, .qrEval, .qrFinal] ∧
      exec .qrAsm State.reset = .next { State.reset with errcode := 6, done := true, err := true }) :=
  ⟨⟨by decide, rfl⟩, by decide, rfl⟩

theorem witness_host_write :
    (writeAt 0x1C 5).isSoftReset = false ∧ access (writeAt 0x1C 5) State.reset = .next { State.reset with bitlen := 5 } :=
  ⟨by decide, rfl⟩

/-- For each check of an access, the accesses at the ends of its range. -/
theorem witness_rejected_accesses :
    (¬ ({ readAt 0x00 with width := 8 }.width = 32 ∧ (0x00 : Nat) % 4 = 0) ∧ ¬ ((0x02 : Nat) % 4 = 0)) ∧
    (¬ (0x94 ≤ 0x90 ∧ 0x94 ≠ 0x5C) ∧ ¬ (0x5C ≤ 0x90 ∧ 0x5C ≠ 0x5C) ∧ ¬ (0xFC ≤ 0x90 ∧ 0xFC ≠ 0x5C)) ∧
    ((pending 0).busy = true ∧ (readAt 0x58).kind = .read ∧ (writeAt 0x48 0).kind = .write ∧
      (0x90 : Nat) ∉ [0x04, 0x08, 0x0C] ∧ (0x10 : Nat) ∉ [0x04, 0x08, 0x0C]) ∧
    (State.reset.busy = false ∧ (0x00 : Nat) ∉ [0x04, 0x08, 0x0C, 0x10, 0x1C, 0x50, 0x54, 0x58] ∧
      (0x90 : Nat) ∉ [0x04, 0x08, 0x0C, 0x10, 0x1C, 0x50, 0x54, 0x58]) := by decide

theorem witness_register_read :
    (Csr.id, 0x00#8, 0x51524331#32) ∈ registerWords State.reset ∧ (Csr.seldark, 0x90#8, 0#32) ∈ registerWords State.reset := by
  decide

theorem witness_host_registers :
    (Csr.bitlen, 0x00007FFF#32) ∈ [(Csr.irqen, 0x0000000E#32), (.bitlen, 0x00007FFF#32), (.bufSel, 0x0000000F#32),
      (.bufAddr, 0x0000FFFF#32)] ∧ State.reset.busy = false ∧ Csr.id ≠ Csr.bitlen ∧
    ((Csr.irqen, 0x0000000E#32) ∈ [(Csr.irqen, 0x0000000E#32), (.bitlen, 0x00007FFF#32), (.bufSel, 0x0000000F#32),
      (.bufAddr, 0x0000FFFF#32)] ∧ (pending 0).busy = true) := by decide

/-- A state whose buffers all have an extent within their capacity. -/
theorem witness_extents : ∀ b : Buf, State.reset.bufExtent b ≤ b.capacity := by
  intro b; cases b <;> decide

/-- For each clause about the buffer port: the first reserved selector, a buffer the host may not write, one that is not
valid, the first index past BITS, and the last index of BITS. -/
theorem witness_buffer_port :
    State.reset.busy = false ∧ 8 ≤ { State.reset with bufSel := 8 }.bufSel.toNat ∧
    (Buf.gen.sel = { State.reset with bufSel := 7 }.bufSel.toNat ∧ Buf.gen ≠ .bits ∧ Buf.gen ≠ .rsin) ∧
    State.reset.bufValid .gen = false ∧
    (State.reset.bufValid .bits = true ∧ State.reset.bufExtent .bits ≤ { State.reset with bufAddr := 2956 }.bufAddr.toNat) ∧
    { State.reset with bufAddr := 2955 }.bufAddr.toNat < State.reset.bufExtent .bits := by decide

theorem witness_hard_reset : { helloBits with agenda := [.hardReset] }.agenda = .hardReset :: [] := by decide

theorem witness_soft_reset : (0x00000001#32).getLsbD 0 = true ∧ (0x00000002#32).getLsbD 0 = false := by decide

/-- A symbol of version 1 begun, the generator of degree 1 loaded, and NOP pending. -/
def begun : State :=
  { inPhase .segmented 1 2 with
    latch := some 0, lastCmd := 0, genv := true, eccount := 1, bufs := Buffers.unwritten.load .gen [1, 1] }

theorem witness_invariant : Inv begun where
  buffers := by intro b; cases b <;> decide
  latch := by intro w h; exact Option.some.inj h
  codes := ⟨by decide, by decide, fun h => absurd h (by decide)⟩
  params := .inr ⟨by decide, 1, 2, by decide, by decide, by decide, rfl⟩
  generator := ⟨by decide, by decide, fun _ k hk => by
    have hk : k ≤ 1 := hk
    interval_cases k <;> rfl⟩
  written := by intro b h1 h2 h3; revert h1 h2 h3; cases b <;> decide
  cells := fun h => absurd h (by decide)
  results := ⟨by decide, fun h => absurd h (by decide), by decide, fun h => absurd h (by decide)⟩

/-- HELLO WORLD's codewords at 1-Q (42_assemble.md R163): the data codewords, and the EC codewords. -/
def helloData : List Byte := [32, 91, 11, 120, 209, 114, 220, 77, 67, 64, 236, 17, 236]

def helloEcc : List Byte := [168, 72, 22, 82, 217, 54, 156, 0, 46, 15, 180, 122, 16]

/-- Version 1-Q in phase `p` with HELLO WORLD's codewords, the matrix `cells`, and the totals and the selected candidate's
scores of 44_mask.md R230. -/
def evaluated (p : Phase) (cells : List Byte) : State :=
  { inPhase p 1 2 with
    bufs := (((Buffers.unwritten.load .data helloData).load .ecc helloEcc).load .cw (helloData ++ helloEcc)).load .matrix cells
    scores := { mask := 6, pen := #v[734, 498, 628, 553, 755, 564, 432, 814], selp := #v[196, 156, 80, 0], seldark := 212 } }

theorem evaluated_buffers (p : Phase) {cells : List Byte} (h : cells.length = 441) : BuffersCanonical (evaluated p cells) :=
  Buffers.wf_load (Buffers.wf_load (Buffers.wf_load (Buffers.wf_load (by intro b; cases b <;> rfl) (by decide)) (by decide))
    (by decide)) (by rw [h]; decide)

theorem evaluated_written (p : Phase) {cells : List Byte} (h : cells.length = 441) : ResultsWritten (evaluated p cells) := by
  have load : ∀ (bytes : List Byte) (i : Nat), i < bytes.length → ((Memory.load bytes []).get? i).isSome = true := by
    intro bytes i hi
    simp [Memory.get?_load, hi]
  intro b hb hr hv i hi
  cases b with
  | bits => exact absurd rfl hb
  | rsin => exact absurd rfl hr
  | rsout => exact absurd hv Bool.false_ne_true
  | gen => exact absurd hv Bool.false_ne_true
  | data => exact load helloData i hi
  | ecc => exact load helloEcc i hi
  | cw => exact load (helloData ++ helloEcc) i hi
  | matrix => exact load cells i (h ▸ hi)

theorem evaluated_cell (p : Phase) {cells : List Byte} (h : cells.length = 441) {r c : Nat} (hr : r < 21) (hc : c < 21) :
    (evaluated p cells).matrixCell r c = cells.getD (r * 21 + c) 0 := by
  have hi : r * 21 + c < cells.length := by omega
  have hread := State.readByte_load_same (s := inPhase p 1 2) (t := evaluated p cells) (b := .matrix) (bytes := cells) rfl rfl
    rfl (r * 21 + c)
  rwa [if_pos hi] at hread

/-- The cells of a matrix whose information cells are still RSV_UNSET. -/
def reservedCells : List Byte :=
  (List.range 441).map fun i => if (i / 21, i % 21) ∈ infoCells 1 21 then cellReserved else dataCell true

/-- A scored state: the parts of the invariant about cells and scores say something. -/
theorem witness_invariant_scored : Inv (evaluated .scored reservedCells) where
  buffers := evaluated_buffers _ (by simp [reservedCells])
  latch := by intro w h; cases h
  codes := ⟨by decide, by decide, fun h => absurd h (by decide)⟩
  params := .inr ⟨by decide, 1, 2, by decide, by decide, by decide, rfl⟩
  generator := ⟨by decide, by decide, fun h => absurd h (by decide)⟩
  written := evaluated_written _ (by simp [reservedCells])
  cells := by
    intro _ r c hr hc
    have hr : r < 21 := hr
    have hc : c < 21 := hc
    rw [evaluated_cell _ (by simp [reservedCells]) hr hc]
    show _ ∧ (_ ↔ Phase.scored ≠ .finalized ∧ (r, c) ∈ infoCells 1 21)
    have hi : r * 21 + c < 441 := by omega
    have hd : (r * 21 + c) / 21 = r := by omega
    have hm : (r * 21 + c) % 21 = c := by omega
    have hcell : reservedCells.getD (r * 21 + c) 0 = if (r, c) ∈ infoCells 1 21 then cellReserved else dataCell true := by
      simp [reservedCells, List.getD, hi, hd, hm]
    rw [hcell]
    split
    · next h => exact ⟨by decide, fun _ => ⟨by decide, h⟩, fun _ => rfl⟩
    · next h => exact ⟨by decide, fun e => absurd e (by decide), fun e => absurd e.2 h⟩
  results := ⟨fun h => absurd h (by decide), fun _ => by decide, fun _ => ⟨rfl, rfl⟩, fun h => absurd h (by decide)⟩

/-- A finalized state, with the words of 1-Q and mask 6 (44_mask.md R239): the part of the invariant about FORMAT and VERINFO
says something. -/
theorem witness_invariant_finalized :
    Inv { evaluated .finalized (List.replicate 441 (funcCell true)) with format := 0x2EDA } where
  buffers := evaluated_buffers .finalized List.length_replicate
  latch := by intro w h; cases h
  codes := ⟨by decide, by decide, fun h => absurd h (by decide)⟩
  params := .inr ⟨by decide, 1, 2, by decide, by decide, by decide, rfl⟩
  generator := ⟨by decide, by decide, fun h => absurd h (by decide)⟩
  written := evaluated_written .finalized (cells := List.replicate 441 (funcCell true)) List.length_replicate
  cells := by
    intro _ r c hr hc
    have hcell := evaluated_cell .finalized (cells := List.replicate 441 (funcCell true)) List.length_replicate (r := r)
      (c := c) hr hc
    have hr : r < 21 := hr
    have hc : c < 21 := hc
    have hi : r * 21 + c < 441 := by omega
    simp only [List.getD, List.getElem?_replicate, if_pos hi, Option.getD_some] at hcell
    show (evaluated .finalized _).matrixCell r c ∈ _ ∧ ((evaluated .finalized _).matrixCell r c = _ ↔ _)
    rw [hcell]
    exact ⟨by decide, fun e => absurd e (by decide), fun e => absurd rfl e.1⟩
  results := ⟨fun h => absurd h (by decide), fun _ => by decide, fun h => absurd rfl h, fun _ => by decide +kernel⟩

theorem witness_step_keeps : BuffersCanonical begun ∧ ParamsAgree begun ∧ ∃ t, step begun = .next t :=
  ⟨witness_invariant.buffers, witness_invariant.params, _, rfl⟩

theorem witness_pseudo_instructions : 40 < 64 ∧ 3 < 8 ∧ (Instr.rsGen 256).wf = false := by decide

end Sys2Proof.Tests
end

namespace Sys2Proof.Machine

/-! ### What a finished symbol is made of (10_state.md R57) -/

/-- The symbol of `s` stands in `t` as it was: PHASE, the symbol parameters, the evaluation, the information words and every
byte of MATRIX (10_state.md R57). -/
structure SymbolKept (s t : State) : Prop where
  phase : t.phase = s.phase
  params : t.params = s.params
  scores : t.scores = s.scores
  format : t.format = s.format
  verinfo : t.verinfo = s.verinfo
  matrix : ∀ i, t.readByte .matrix i = s.readByte .matrix i

theorem SymbolKept.refl (s : State) : SymbolKept s s :=
  ⟨rfl, rfl, rfl, rfl, rfl, fun _ => rfl⟩

theorem SymbolKept.trans {s t u : State} (h : SymbolKept s t) (h' : SymbolKept t u) : SymbolKept s u :=
  ⟨h'.phase.trans h.phase, h'.params.trans h.params, h'.scores.trans h.scores, h'.format.trans h.format,
    h'.verinfo.trans h.verinfo, fun i => (h'.matrix i).trans (h.matrix i)⟩

theorem symbolKept_settle (code : BitVec 8) (s : State) : SymbolKept s (s.settle code) :=
  ⟨rfl, rfl, rfl, rfl, rfl, fun _ => rfl⟩

theorem symbolKept_agenda (turns : List Turn) (s : State) : SymbolKept s { s with agenda := turns } :=
  ⟨rfl, rfl, rfl, rfl, rfl, fun _ => rfl⟩

theorem symbolKept_rejectAccess (e : AccError) (k : AccessKind) (s : State) : SymbolKept s (rejectAccess e k s) :=
  ⟨rfl, rfl, rfl, rfl, rfl, fun _ => rfl⟩

theorem symbolKept_advance (s : State) : SymbolKept s s.advance :=
  ⟨rfl, rfl, rfl, rfl, rfl, fun _ => rfl⟩

theorem symbolKept_busData (w : Word) (s : State) : SymbolKept s { s with busData := w } :=
  ⟨rfl, rfl, rfl, rfl, rfl, fun _ => rfl⟩

theorem symbolKept_writeByte {b : Buf} (h : b ≠ .matrix) (i : Nat) (v : Byte) (s : State) :
    SymbolKept s (s.writeByte b i v) :=
  ⟨rfl, rfl, rfl, rfl, rfl, fun _ => State.readByte_writeByte_other v s (.inl h.symm)⟩

/-! ### A host transaction -/

/-- An aligned offset of a register is that register's own offset (10_state.md R23). -/
theorem Csr.offset_of_csrAt? {o : BitVec 8} {r : Csr} (ha : o.toNat % 4 = 0) (h : csrAt? o.toNat = some r) :
    r.offset = o := by
  have table : ∀ o : BitVec 8, o.toNat % 4 = 0 → ∀ r ∈ csrAt? o.toNat, r.offset = o := by decide
  exact table o ha r h

theorem access_of_badShape {a : Access} (h : a.width ≠ 32 ∨ a.offset.toNat % 4 ≠ 0) (s : State) :
    access a s = .next (rejectAccess .width a.kind s) := by
  simp only [access, if_pos h]

/-- A write with CTRL's register number that is no soft reset has bit 0 clear, once its width and alignment are right. -/
theorem bit0_clear_of_not_isSoftReset {a : Access} (hs : a.isSoftReset = false) (hk : a.kind = .write) (hw : a.width = 32)
    (ha : a.offset.toNat % 4 = 0) (hr : csrAt? a.offset.toNat = some .ctrl) : a.data.getLsbD 0 = false := by
  have ho : a.offset = Csr.ctrl.offset := (Csr.offset_of_csrAt? ha hr).symm
  simpa [Access.isSoftReset, hk, hw, ho] using hs

/-- A port write lands in BITS or RSIN only (20_memory.md R81, R82). -/
theorem hostWritable_of_portCheck {s : State} {b : Buf} (h : portCheck .write s = .ok b) : b.hostWritable = true := by
  unfold portCheck at h
  split at h
  · cases h
  · next c _ =>
    by_cases hc : c.hostWritable = true
    · split_ifs at h
      cases h
      exact hc
    · simp [hc] at h

/-- A register write that is no soft reset keeps the symbol. -/
theorem symbolKept_writeCsr {r : Csr} {w : Word} (h : r = .ctrl → w.getLsbD 0 = false) (s : State) :
    SymbolKept s (writeCsr r w s) := by
  cases r
  case ctrl =>
    have hkeep : writeCsr .ctrl w s = s := if_neg (by simp only [h rfl, Bool.false_eq_true, not_false_eq_true])
    rw [hkeep]
    exact SymbolKept.refl s
  all_goals exact ⟨rfl, rfl, rfl, rfl, rfl, fun _ => rfl⟩

theorem symbolKept_accessPort {k : AccessKind} {w : Word} {s t : State} (h : accessPort k w s = .next t) :
    SymbolKept s t := by
  obtain ⟨e, -, rfl⟩ | ⟨b, -, -, -, rfl⟩ | ⟨b, hb, -, rfl, rfl⟩ := accessPort_cases h
  · exact (symbolKept_rejectAccess e k s).trans (symbolKept_advance _)
  · exact (symbolKept_busData _ s).trans (symbolKept_advance _)
  · have hm : b ≠ .matrix := by
      rintro rfl
      exact absurd (hostWritable_of_portCheck hb) (by decide)
    exact (symbolKept_writeByte hm _ _ s).trans (symbolKept_advance _)

/-- Of the host's transactions only a soft reset touches the symbol (20_memory.md R76, R82, 70_reset_and_hazards.md R322). -/
theorem symbolKept_access {a : Access} {s t : State} (hs : a.isSoftReset = false) (h : access a s = .next t) :
    SymbolKept s t := by
  by_cases hshape : a.width ≠ 32 ∨ a.offset.toNat % 4 ≠ 0
  · rw [access_of_badShape hshape] at h
    cases h
    exact symbolKept_rejectAccess _ _ s
  · obtain ⟨hw, ha⟩ : a.width = 32 ∧ a.offset.toNat % 4 = 0 := by tauto
    obtain ⟨e, rfl⟩ | ⟨-, -, hp⟩ | ⟨r, -, -, -, rfl⟩ | ⟨r, hr, -, -, hk, -, rfl⟩ := access_cases h
    · exact symbolKept_rejectAccess e _ s
    · exact symbolKept_accessPort hp
    · exact symbolKept_busData _ s
    · exact symbolKept_writeCsr (fun e => bit0_clear_of_not_isSoftReset hs hk hw ha (e ▸ hr)) s

/-! ### A command -/

/-- A command whose effects keep the symbol completes with the symbol kept. -/
theorem symbolKept_finish {s u t : State} (h : finish u = .next t) (hu : SymbolKept s u) : SymbolKept s t :=
  finish_eq_next h ▸ hu.trans (symbolKept_settle 0 u)

/-- Every command error but CapacityMismatch, which sets PHASE to FAULT, keeps the symbol. -/
theorem symbolKept_raiseCmdError {e : CmdError} {s t : State} (he : e ≠ .capacityMismatch)
    (h : raiseCmdError e s = .next t) : SymbolKept s t := by
  rw [raiseCmdError_of_ne he] at h
  cases h
  exact symbolKept_settle e.code s

/-- A command that fails reports its code with DONE and ERR (45_control.md R262). -/
theorem State.settle_of_error {code : BitVec 8} (h : code ≠ 0) (s : State) :
    s.settle code = { s with errcode := code, done := true, err := true, latch := none } := by
  have herr : (s.err || code != 0) = true := by rw [bne_iff_ne.mpr h, Bool.or_true]
  rw [State.settle, herr]

/-- A pipeline command outside the phase it needs fails with SequenceError, code 6 (10_state.md R56). -/
theorem exec_of_wrong_phase {i : Instr} {need : Phase} {s : State}
    (hi : (i, need) ∈ [(Instr.qrAsm, Phase.segmented), (.qrBuild, .assembled), (.qrEval, .matrixBuilt), (.qrFinal, .scored)])
    (h : s.phase ≠ need) : exec i s = .next (s.settle 6) := by
  have hraise : raiseCmdError .sequenceError s = .next (s.settle 6) := raiseCmdError_of_ne (by decide) s
  simp only [List.mem_cons, Prod.mk.injEq, List.not_mem_nil, or_false] at hi
  obtain ⟨rfl, rfl⟩ | ⟨rfl, rfl⟩ | ⟨rfl, rfl⟩ | ⟨rfl, rfl⟩ := hi
  all_goals exact (if_pos h).trans hraise

/-- The phases some pipeline command other than QR.BEGIN needs (10_state.md R56). -/
def Phase.inPipeline : Phase → Bool
  | .segmented => true
  | .assembled => true
  | .matrixBuilt => true
  | .scored => true
  | _ => false

/-- In UNSEGMENTED, FINALIZED and FAULT no pipeline command but QR.BEGIN runs (10_state.md R56, R57). -/
theorem exec_pipeline_of_not_inPipeline {i : Instr} {s : State} (hp : s.phase.inPipeline = false)
    (hi : i ∈ [Instr.qrAsm, .qrBuild, .qrEval, .qrFinal]) : exec i s = .next (s.settle 6) := by
  have hne {need : Phase} (hn : need.inPipeline = true) : s.phase ≠ need := by
    rintro rfl
    exact absurd hn (by simp [hp])
  simp only [List.mem_cons, List.not_mem_nil, or_false] at hi
  obtain rfl | rfl | rfl | rfl := hi
  · exact exec_of_wrong_phase (need := .segmented) (by decide) (hne rfl)
  · exact exec_of_wrong_phase (need := .assembled) (by decide) (hne rfl)
  · exact exec_of_wrong_phase (need := .matrixBuilt) (by decide) (hne rfl)
  · exact exec_of_wrong_phase (need := .scored) (by decide) (hne rfl)

/-- The outcomes of QR.BEGIN: its version or its level refused, or the new symbol set up (42_assemble.md R160). -/
theorem execQrBegin_cases {v e : Nat} {s t : State} (h : execQrBegin v e s = .next t) :
    ((v < 1 ∨ 40 < v) ∧ t = s.settle 2) ∨
    ((1 ≤ v ∧ v ≤ 40) ∧ 3 < e ∧ t = s.settle 3) ∨
    ((1 ≤ v ∧ v ≤ 40) ∧ e ≤ 3 ∧
      t = { s with
        params := paramsOf v e
        scores := Scores.zero
        format := 0
        verinfo := 0
        phase := .segmented }.settle 0) := by
  unfold execQrBegin at h
  split at h
  · next hv => exact .inl ⟨hv, by cases h; rfl⟩
  · next hv =>
    split at h
    · next he => exact .inr (.inl ⟨by omega, he, by cases h; rfl⟩)
    · next he => exact .inr (.inr ⟨by omega, by omega, by cases h; rfl⟩)

/-- QR.BEGIN keeps the symbol, or starts a new one. -/
theorem execQrBegin_keeps_or_begins {v e : Nat} {s t : State} (h : execQrBegin v e s = .next t) :
    SymbolKept s t ∨ t.phase = .segmented := by
  obtain ⟨-, rfl⟩ | ⟨-, -, rfl⟩ | ⟨-, -, rfl⟩ := execQrBegin_cases h
  · exact .inl (symbolKept_settle _ s)
  · exact .inl (symbolKept_settle _ s)
  · exact .inr rfl

theorem symbolKept_execGfLog {a : Byte} {s t : State} (h : execGfLog a s = .next t) : SymbolKept s t := by
  unfold execGfLog at h
  split at h
  · exact symbolKept_raiseCmdError (by decide) h
  · exact symbolKept_finish h ⟨rfl, rfl, rfl, rfl, rfl, fun _ => rfl⟩

theorem symbolKept_execRsGen {n : Nat} {s t : State} (h : execRsGen n s = .next t) : SymbolKept s t := by
  unfold execRsGen at h
  split at h
  · exact symbolKept_raiseCmdError (by decide) h
  · exact symbolKept_finish h ⟨rfl, rfl, rfl, rfl, rfl, fun _ => rfl⟩

theorem symbolKept_execRsDiv {n len : Nat} {s t : State} (h : execRsDiv n len s = .next t) : SymbolKept s t := by
  unfold execRsDiv at h
  split at h
  · exact symbolKept_raiseCmdError (by decide) h
  · split at h
    · exact symbolKept_raiseCmdError (by decide) h
    · exact symbolKept_finish h ⟨rfl, rfl, rfl, rfl, rfl, fun _ => rfl⟩

/-- In UNSEGMENTED, FINALIZED and FAULT every command keeps the symbol, but a QR.BEGIN that succeeds (10_state.md R57). -/
theorem exec_of_not_inPipeline {i : Instr} {s t : State} (hp : s.phase.inPipeline = false) (h : exec i s = .next t) :
    SymbolKept s t ∨ (t.phase = .segmented ∧ ∃ v e, i = .qrBegin v e) := by
  have pipeline (hi : i ∈ [Instr.qrAsm, .qrBuild, .qrEval, .qrFinal]) : SymbolKept s t := by
    rw [exec_pipeline_of_not_inPipeline hp hi] at h
    cases h
    exact symbolKept_settle 6 s
  cases i with
  | nop => exact .inl (symbolKept_finish h (SymbolKept.refl s))
  | gfMul a b => exact .inl (symbolKept_finish h ⟨rfl, rfl, rfl, rfl, rfl, fun _ => rfl⟩)
  | gfPow a e => exact .inl (symbolKept_finish h ⟨rfl, rfl, rfl, rfl, rfl, fun _ => rfl⟩)
  | gfExp x => exact .inl (symbolKept_finish h ⟨rfl, rfl, rfl, rfl, rfl, fun _ => rfl⟩)
  | gfLog a => exact .inl (symbolKept_execGfLog h)
  | rsGen n => exact .inl (symbolKept_execRsGen h)
  | rsDiv n len => exact .inl (symbolKept_execRsDiv h)
  | qrBegin v e => exact (execQrBegin_keeps_or_begins h).imp_right fun hseg => ⟨hseg, v, e, rfl⟩
  | qrAsm => exact .inl (pipeline (by decide))
  | qrBuild => exact .inl (pipeline (by decide))
  | qrEval => exact .inl (pipeline (by decide))
  | qrFinal => exact .inl (pipeline (by decide))

/-! ### A step -/

/-- In UNSEGMENTED, FINALIZED and FAULT the core's turn keeps the symbol, or completes a QR.BEGIN (45_control.md R262). -/
theorem coreTurn_of_not_inPipeline {s t : State} (hp : s.phase.inPipeline = false) (h : coreTurn s = .next t) :
    SymbolKept s t ∨ (t.phase = .segmented ∧
      ∃ w v e, s.latch = some w ∧ decode w = .ok (.qrBegin v e) ∧ exec (.qrBegin v e) s = .next t) := by
  cases hl : s.latch with
  | none =>
    rw [coreTurn_of_idle hl] at h
    cases h
    exact .inl (SymbolKept.refl s)
  | some w =>
    rw [coreTurn_of_pending hl] at h
    cases hd : decode w with
    | error e =>
      rw [complete_of_illegal hd] at h
      exact .inl (symbolKept_raiseCmdError (by decide) h)
    | ok i =>
      rw [complete_of_decode hd] at h
      obtain hk | ⟨hseg, v, e, rfl⟩ := exec_of_not_inPipeline hp h
      · exact .inl hk
      · exact .inr ⟨hseg, w, v, e, rfl, hd, h⟩

/-- Every step is of one kind: the core's turn, a reset, or a host transaction that is no soft reset. -/
theorem turn_cases (s : State) :
    s.coreNext ∨ s.resetNext ∨ ∃ a rest, a.isSoftReset = false ∧ s.agenda = .host a :: rest := by
  cases hs : s.agenda with
  | nil => exact .inl (.inl hs)
  | cons turn rest =>
    cases turn with
    | core => exact .inl (.inr ⟨rest, hs⟩)
    | hardReset => exact .inr (.inl ⟨rest, .inl hs⟩)
    | host a =>
      cases ha : a.isSoftReset with
      | true => exact .inr (.inl ⟨rest, .inr ⟨a, ha, hs⟩⟩)
      | false => exact .inr (.inr ⟨a, rest, ha, rfl⟩)

/-- A reset of either kind leaves no symbol and no pending command (70_reset_and_hazards.md R320, R322). -/
theorem step_reset_fields {s t : State} (hr : s.resetNext) (h : step s = .next t) :
    t.phase = .unsegmented ∧ t.latch = none ∧ t.params = Params.zero := by
  obtain ⟨rest, hstep | hstep⟩ := step_of_resetNext hr
  · cases hstep.symm.trans h
    exact ⟨rfl, rfl, rfl⟩
  · cases hstep.symm.trans h
    exact ⟨rfl, rfl, rfl⟩

/-- A step from UNSEGMENTED, FINALIZED or FAULT keeps the symbol, completes a QR.BEGIN, or is a reset (10_state.md R57). -/
theorem step_of_not_inPipeline {s t : State} (hp : s.phase.inPipeline = false) (h : step s = .next t) :
    SymbolKept s t ∨
    (t.phase = .segmented ∧ s.coreNext ∧ ∃ w v e, s.latch = some w ∧ decode w = .ok (.qrBegin v e) ∧
      exec (.qrBegin v e) { s with agenda := s.agenda.tail } = .next t) ∨
    (s.resetNext ∧ t.phase = .unsegmented ∧ t.latch = none ∧ t.params = Params.zero) := by
  obtain hc | hr | ⟨a, rest, ha, hs⟩ := turn_cases s
  · rw [step_of_coreNext hc] at h
    obtain hk | ⟨hseg, hbegin⟩ := coreTurn_of_not_inPipeline (s := { s with agenda := s.agenda.tail }) hp h
    · exact .inl ((symbolKept_agenda _ s).trans hk)
    · exact .inr (.inl ⟨hseg, hc, hbegin⟩)
  · exact .inr (.inr ⟨hr, step_reset_fields hr h⟩)
  · rw [step_of_agenda_cons hs] at h
    exact .inl ((symbolKept_agenda rest s).trans (symbolKept_access ha h))

/-- Settles O28: FINALIZED is a phase that no pipeline command but QR.BEGIN needs, so a step from it keeps the symbol but for
a QR.BEGIN and a reset. -/
theorem finalizedSymbolIsImmutable : Obligations.FinalizedSymbolIsImmutable := by
  unfold Obligations.FinalizedSymbolIsImmutable
  have outside {s : State} (hp : s.phase = .finalized) : s.phase.inPipeline = false := by rw [hp]; rfl
  refine ⟨fun s t hp h => ?_, fun i s hp hi => ?_⟩
  · obtain hk | hbegin | ⟨hr, hphase, hlatch, hparams⟩ := step_of_not_inPipeline (outside hp) h
    · exact .inl ⟨hk.phase.trans hp, hk.params, hk.scores, hk.format, hk.verinfo, hk.matrix⟩
    · exact .inr (.inl hbegin)
    · exact .inr (.inr ⟨hphase, hr, hlatch, hparams⟩)
  · rw [exec_pipeline_of_not_inPipeline (outside hp) hi, State.settle_of_error (by decide)]

end Sys2Proof.Machine

namespace Sys2Proof

/-! ### The row of a word (30_encoding.md R101, R102) -/

/-- No two rows of the opcode map share an OPCODE, so a word's OPCODE names at most one row (30_encoding.md R100). -/
theorem opcodeMap_opcodes_nodup : (opcodeMap.map fun row => row.bits.byteAt 0).Nodup := by decide

theorem mem_and_opcode_of_opRow? {row : OpRow} {w : Word} (h : opRow? w = some row) :
    row ∈ opcodeMap ∧ row.bits.byteAt 0 = w.byteAt 0 := by
  unfold opRow? at h
  exact ⟨List.mem_of_find?_eq_some h, by simpa using List.find?_some h⟩

theorem opRow?_of_mem {row : OpRow} {w : Word} (hrow : row ∈ opcodeMap) (hop : row.bits.byteAt 0 = w.byteAt 0) :
    opRow? w = some row := by
  have hfound : (opRow? w).isSome := List.find?_isSome.mpr ⟨row, hrow, beq_iff_eq.mpr hop⟩
  obtain ⟨first, hfirst⟩ := Option.isSome_iff_exists.mp hfound
  obtain ⟨hmem, hop'⟩ := mem_and_opcode_of_opRow? hfirst
  have hsame : first = row := List.inj_on_of_nodup_map opcodeMap_opcodes_nodup hmem hrow (hop'.trans hop.symm)
  exact hsame ▸ hfirst

/-- A word with a row's OPCODE decodes by that row alone, its operands or a reserved bit (30_encoding.md R101). -/
theorem decode_of_row {row : OpRow} {w : Word} (hrow : row ∈ opcodeMap) (hop : row.bits.byteAt 0 = w.byteAt 0) :
    decode w = if w &&& row.mask = row.bits then .ok (row.operands w) else .error .reservedBit := by
  simp only [decode, opRow?_of_mem hrow hop]

theorem decode_of_reservedBit {row : OpRow} {w : Word} (hrow : row ∈ opcodeMap)
    (hop : row.bits.byteAt 0 = w.byteAt 0) (hbit : w &&& row.mask ≠ row.bits) : decode w = .error .reservedBit :=
  (decode_of_row hrow hop).trans (if_neg hbit)

theorem decode_of_unassigned {w : Word} (h : ∀ row ∈ opcodeMap, row.bits.byteAt 0 ≠ w.byteAt 0) :
    decode w = .error .unassignedOpcode := by
  have hnone : opRow? w = none := List.find?_eq_none.mpr fun row hrow => by simpa using h row hrow
  simp only [decode, hnone]

/-- The assigned OPCODEs lie in three ranges (30_encoding.md R100, R102). -/
theorem opcode_of_mem_opcodeMap {row : OpRow} (hrow : row ∈ opcodeMap) :
    (row.bits.byteAt 0).toNat ≤ 0x04 ∨
    (0x10 ≤ (row.bits.byteAt 0).toNat ∧ (row.bits.byteAt 0).toNat ≤ 0x11) ∨
    (0x20 ≤ (row.bits.byteAt 0).toNat ∧ (row.bits.byteAt 0).toNat ≤ 0x24) := by
  revert row
  decide

/-- The OPCODEs of the ranges of 30_encoding.md R102 are unassigned. -/
theorem decode_of_unassigned_range {w : Word}
    (h : (0x05 ≤ (w.byteAt 0).toNat ∧ (w.byteAt 0).toNat ≤ 0x0F) ∨
      (0x12 ≤ (w.byteAt 0).toNat ∧ (w.byteAt 0).toNat ≤ 0x1F) ∨ 0x25 ≤ (w.byteAt 0).toNat) :
    decode w = .error .unassignedOpcode := by
  refine decode_of_unassigned fun row hrow hop => ?_
  have hassigned := opcode_of_mem_opcodeMap hrow
  rw [hop] at hassigned
  omega

/-- Settles O5: every worked command is encoded and decoded; the first failing word has bit 24 of GF.MUL set, and OPCODE 0x25
is in no row. -/
theorem workedEncodingsAgree : Obligations.WorkedEncodingsAgree := by
  unfold Obligations.WorkedEncodingsAgree
  have hgfMul : ⟨"GF.MUL", 0x00000001, 0xFF0000FF, fun w => .gfMul (w.byteAt 8) (w.byteAt 16)⟩ ∈ opcodeMap :=
    .tail _ (.head _)
  exact ⟨by decide, decode_of_reservedBit hgfMul (by decide) (by decide), decode_of_unassigned (by decide)⟩

end Sys2Proof

namespace Sys2Proof.Machine

/-- COMPLETE() on a word that does not decode reports IllegalCommand, code 1, and nothing else (30_encoding.md R102). -/
theorem complete_of_decode_error {w : Word} {e : DecodeError} (h : decode w = .error e) (s : State) :
    complete w s = .next { s with errcode := 1, done := true, err := true, latch := none } := by
  calc complete w s
    _ = raiseCmdError .illegalCommand s := complete_of_illegal h s
    _ = .next (s.settle 1) := raiseCmdError_of_ne (by decide) s
    _ = .next { s with errcode := 1, done := true, err := true, latch := none } := by
      rw [State.settle_of_error (by decide)]

/-- Settles O4: a word of an unassigned range and a word with a reserved bit set both fail to decode, and completing a word
that does not decode reports IllegalCommand only. -/
theorem illegalWordChangesNothingElse : Obligations.IllegalWordChangesNothingElse := by
  unfold Obligations.IllegalWordChangesNothingElse
  rintro w s op rfl (h | h | h | ⟨row, hrow, hop, hbit⟩)
  · exact complete_of_decode_error (decode_of_unassigned_range (.inl h)) s
  · exact complete_of_decode_error (decode_of_unassigned_range (.inr (.inl h))) s
  · exact complete_of_decode_error (decode_of_unassigned_range (.inr (.inr h))) s
  · exact complete_of_decode_error (decode_of_reservedBit hrow hop hbit) s

end Sys2Proof.Machine

namespace Sys2Proof

/-! ### The words of a format whose reserved bits reach up to bit 31 (30_encoding.md R92 to R98) -/

/-- The mask of a row whose operands lie in bits lo−1:8 and whose reserved-zero bits are 31:lo (30_encoding.md R100). -/
def reservedFrom (lo : Nat) : Word :=
  BitVec.allOnes 32 <<< lo ||| 0xFF#32

theorem reservedFrom_getLsbD {lo k : Nat} (hk : k < 32) :
    (reservedFrom lo).getLsbD k = (decide (lo ≤ k) || decide (k < 8)) := by
  have hlow : (0xFF#32).getLsbD k = decide (k < 8) := by
    revert k
    decide
  have hhigh : (BitVec.allOnes 32 <<< lo).getLsbD k = decide (lo ≤ k) := by
    rw [BitVec.getLsbD_shiftLeft, BitVec.getLsbD_allOnes, Bool.eq_iff_iff]
    simp [hk, Nat.sub_lt_of_lt hk]
  rw [reservedFrom, BitVec.getLsbD_or, hlow, hhigh]

theorem Word.field_eq_zero_iff {hi lo : Nat} {w : Word} : w.field hi lo = 0 ↔ w.extractLsb' lo (hi + 1 - lo) = 0 := by
  rw [Word.field, ← BitVec.toNat_inj]
  rfl

/-- The field from bit `lo` up is 0 exactly when each of its bits is. -/
theorem Word.field_31_eq_zero_iff {lo : Nat} {w : Word} :
    w.field 31 lo = 0 ↔ ∀ k, lo ≤ k → w.getLsbD k = false := by
  rw [Word.field_eq_zero_iff]
  refine ⟨fun h k hk => ?_, fun h => BitVec.eq_of_getLsbD_eq fun j _ => ?_⟩
  · by_cases hw : k < 32
    · have hbit := congrArg (BitVec.getLsbD · (k - lo)) h
      simpa [BitVec.getLsbD_extractLsb', Nat.add_sub_cancel' hk, show k - lo < 32 - lo by omega] using hbit
    · exact BitVec.getLsbD_of_ge w k (by omega)
  · simp [BitVec.getLsbD_extractLsb', h (lo + j) (by omega)]

theorem getLsbD_of_byteAt_zero_eq {v w : Word} (h : v.byteAt 0 = w.byteAt 0) {k : Nat} (hk : k < 8) :
    v.getLsbD k = w.getLsbD k := by
  have hbit := congrArg (BitVec.getLsbD · k) h
  simpa [Word.byteAt, BitVec.getLsbD_extractLsb', hk] using hbit

/-- A word with the OPCODE of such a row matches the row exactly when its reserved field is 0 (30_encoding.md R100, R101). -/
theorem and_reservedFrom_eq_iff {lo : Nat} {bits w : Word} (hlo : 8 ≤ lo) (hbits : bits.field 31 8 = 0)
    (hop : bits.byteAt 0 = w.byteAt 0) : w &&& reservedFrom lo = bits ↔ w.field 31 lo = 0 := by
  rw [Word.field_31_eq_zero_iff] at hbits ⊢
  refine ⟨fun h k hk => ?_, fun h => BitVec.eq_of_getLsbD_eq fun k hk => ?_⟩
  · by_cases hw : k < 32
    · rw [← hbits k (by omega), ← h, BitVec.getLsbD_and, reservedFrom_getLsbD hw, decide_eq_true hk, Bool.true_or,
        Bool.and_true]
    · exact BitVec.getLsbD_of_ge w k (by omega)
  · rw [BitVec.getLsbD_and, reservedFrom_getLsbD hk]
    obtain hopcode | hoperand | hreserved : k < 8 ∨ (8 ≤ k ∧ k < lo) ∨ lo ≤ k := by omega
    · simp [hopcode, getLsbD_of_byteAt_zero_eq hop hopcode]
    · simp [hbits k hoperand.1, Nat.not_le.mpr hoperand.2, Nat.not_lt.mpr hoperand.1]
    · simp [h k hreserved, hbits k (by omega)]

end Sys2Proof

namespace Sys2Proof.Machine

/-- COMPLETE() on a word with the OPCODE of a row whose reserved field is 31:lo: the row's command where the field is 0,
IllegalCommand where it is not (30_encoding.md R101, R102). -/
theorem complete_of_reservedFrom {row : OpRow} {w : Word} {lo : Nat} (hrow : row ∈ opcodeMap) (hlo : 8 ≤ lo)
    (hmask : row.mask = reservedFrom lo) (hbits : row.bits.field 31 8 = 0) (hop : row.bits.byteAt 0 = w.byteAt 0)
    (s : State) :
    (w.field 31 lo = 0 → complete w s = exec (row.operands w) s) ∧
    (w.field 31 lo ≠ 0 → complete w s = .next { s with errcode := 1, done := true, err := true, latch := none }) := by
  have hmatch : w &&& row.mask = row.bits ↔ w.field 31 lo = 0 := hmask ▸ and_reservedFrom_eq_iff hlo hbits hop
  refine ⟨fun h => ?_, fun h => ?_⟩
  · exact complete_of_decode ((decode_of_row hrow hop).trans (if_pos (hmatch.mpr h))) s
  · exact complete_of_decode_error (decode_of_reservedBit hrow hop (mt hmatch.mp h)) s

/-- A command that succeeds reports code 0 with DONE and leaves ERR as it was (45_control.md R262). -/
theorem finish_eq (s : State) : finish s = .next { s with errcode := 0, done := true, latch := none } := by
  have herr : (s.err || (0 : BitVec 8) != 0) = s.err := Bool.or_false _
  rw [finish, State.settle, herr]

/-! ### The antilog and log tables (40_gf.md R122, R130, R131) -/

/-- The product of an element by α = 0x02, the polynomial x (40_gf.md R120, R122). -/
def timesAlpha (a : Byte) : Byte :=
  (a <<< 1) ^^^ (if a.getLsbD 7 then 0x1D else 0)

/-- As polynomials: shifted up by one place, and reduced by 0x11D when x^8 appears (40_gf.md R122). -/
theorem timesAlpha_toNat (a : Byte) :
    (timesAlpha a).toNat = (a.toNat <<< 1) ^^^ (if a.getLsbD 7 then 0x11D else 0) := by
  revert a
  decide

theorem timesAlpha_xor (a b : Byte) : timesAlpha (a ^^^ b) = timesAlpha a ^^^ timesAlpha b := by
  have hreduce : (if (a ^^^ b).getLsbD 7 then (0x1D : Byte) else 0) =
      (if a.getLsbD 7 then 0x1D else 0) ^^^ (if b.getLsbD 7 then 0x1D else 0) := by
    rw [BitVec.getLsbD_xor]
    cases a.getLsbD 7 <;> cases b.getLsbD 7 <;> rfl
  simp only [timesAlpha, BitVec.shiftLeft_xor_distrib, hreduce]
  ac_rfl

@[simp] theorem gfExp_zero : gfExp 0 = 1 := rfl

theorem gfExp_255 : gfExp 255 = 1 := rfl

theorem gfExp_succ {i : Nat} (h : i < 255) : gfExp (i + 1) = timesAlpha (gfExp i) := by
  revert i
  decide +kernel

theorem gfLog?_zero : gfLog? 0 = none := rfl

theorem gfLog?_gfExp {i : Nat} (h : i < 255) : gfLog? (gfExp i) = some i := by
  revert i
  decide +kernel

/-- Every non-zero element has a logarithm below 255, and its antilogarithm is the element. -/
theorem exists_gfLog? {a : Byte} (h : a ≠ 0) : ∃ x, gfLog? a = some x ∧ x < 255 ∧ gfExp x = a := by
  have table : ∀ a : Byte, a ≠ 0 → romEntry logRom a.toNat < 255 ∧ gfExp (romEntry logRom a.toNat) = a := by decide
  exact ⟨_, if_neg h, table a h⟩

theorem lt_and_gfExp_of_gfLog? {a : Byte} {x : Nat} (h : gfLog? a = some x) : x < 255 ∧ gfExp x = a := by
  have ha : a ≠ 0 := by
    rintro rfl
    cases h
  obtain ⟨y, hy, hrest⟩ := exists_gfLog? ha
  cases hy.symm.trans h
  exact hrest

/-! ### The powers of α (40_gf.md R122 to R124) -/

/-- α^n for any exponent: the powers of α repeat with period 255 (40_gf.md R122). -/
def alphaPow (n : Nat) : Byte :=
  gfExp (n % 255)

theorem alphaPow_of_lt {n : Nat} (h : n < 255) : alphaPow n = gfExp n := by
  rw [alphaPow, Nat.mod_eq_of_lt h]

@[simp] theorem alphaPow_255_mul (k : Nat) : alphaPow (255 * k) = 1 := by
  rw [alphaPow, Nat.mul_mod_right, gfExp_zero]

theorem alphaPow_succ (n : Nat) : alphaPow (n + 1) = timesAlpha (alphaPow n) := by
  unfold alphaPow
  by_cases hlast : n % 255 = 254
  · have hwrap : (n + 1) % 255 = 0 := by omega
    rw [hwrap, hlast, ← gfExp_succ (by decide), gfExp_255, gfExp_zero]
  · have hnext : (n + 1) % 255 = n % 255 + 1 := by omega
    rw [hnext, gfExp_succ (by omega)]

@[simp] theorem gfLog?_alphaPow (n : Nat) : gfLog? (alphaPow n) = some (n % 255) :=
  gfLog?_gfExp (Nat.mod_lt n (by decide))

/-- α generates the multiplicative group (40_gf.md R122). -/
theorem eq_zero_or_alphaPow (a : Byte) : a = 0 ∨ ∃ x, a = alphaPow x := by
  by_cases ha : a = 0
  · exact .inl ha
  · obtain ⟨x, -, hx, hexp⟩ := exists_gfLog? ha
    exact .inr ⟨x, (alphaPow_of_lt hx).trans hexp |>.symm⟩

/-! ### Multiplication and power (40_gf.md R123, R124) -/

theorem gmul_of_gfLog? {a b : Byte} {x y : Nat} (ha : gfLog? a = some x) (hb : gfLog? b = some y) :
    gmul a b = gfExp ((x + y) % 255) := by
  simp only [gmul, ha, hb]

theorem gmul_zero (a : Byte) : gmul a 0 = 0 := by
  rw [gmul, gfLog?_zero]
  cases gfLog? a <;> rfl

theorem zero_gmul (b : Byte) : gmul 0 b = 0 := by
  simp only [gmul, gfLog?_zero]

@[simp] theorem gmul_alphaPow (x y : Nat) : gmul (alphaPow x) (alphaPow y) = alphaPow (x + y) := by
  rw [gmul_of_gfLog? (gfLog?_alphaPow x) (gfLog?_alphaPow y), ← Nat.add_mod, alphaPow]

theorem gmul_comm (a b : Byte) : gmul a b = gmul b a := by
  obtain rfl | ⟨x, rfl⟩ := eq_zero_or_alphaPow a
  · rw [zero_gmul, gmul_zero]
  obtain rfl | ⟨y, rfl⟩ := eq_zero_or_alphaPow b
  · rw [zero_gmul, gmul_zero]
  rw [gmul_alphaPow, gmul_alphaPow, Nat.add_comm]

theorem gmul_assoc (a b c : Byte) : gmul (gmul a b) c = gmul a (gmul b c) := by
  obtain rfl | ⟨x, rfl⟩ := eq_zero_or_alphaPow a
  · simp only [zero_gmul]
  obtain rfl | ⟨y, rfl⟩ := eq_zero_or_alphaPow b
  · simp only [zero_gmul, gmul_zero]
  obtain rfl | ⟨z, rfl⟩ := eq_zero_or_alphaPow c
  · simp only [gmul_zero]
  simp only [gmul_alphaPow, Nat.add_assoc]

theorem one_gmul (b : Byte) : gmul 1 b = b := by
  obtain rfl | ⟨y, rfl⟩ := eq_zero_or_alphaPow b
  · exact gmul_zero 1
  · rw [← alphaPow_255_mul 0, gmul_alphaPow, Nat.mul_zero, Nat.zero_add]

theorem gmul_one (a : Byte) : gmul a 1 = a := by
  rw [gmul_comm, one_gmul]

/-- Multiplying by α^(n+1) is multiplying by α^n and then by x. -/
theorem alphaPow_succ_gmul (n : Nat) (b : Byte) : gmul (alphaPow (n + 1)) b = timesAlpha (gmul (alphaPow n) b) := by
  obtain rfl | ⟨y, rfl⟩ := eq_zero_or_alphaPow b
  · rw [gmul_zero, gmul_zero]
    rfl
  · rw [gmul_alphaPow, gmul_alphaPow, Nat.add_right_comm, alphaPow_succ]

/-- Multiplying by a power of α is repeated multiplying by x, which distributes over ⊕. -/
theorem gmul_xor (a b c : Byte) : gmul a (b ^^^ c) = gmul a b ^^^ gmul a c := by
  obtain rfl | ⟨x, rfl⟩ := eq_zero_or_alphaPow a
  · simp only [zero_gmul, BitVec.xor_self]
    rfl
  induction x with
  | zero => simp only [show alphaPow 0 = 1 from rfl, one_gmul]
  | succ n ih => simp only [alphaPow_succ_gmul, ih, timesAlpha_xor]

theorem xor_gmul (a b c : Byte) : gmul (a ^^^ b) c = gmul a c ^^^ gmul b c := by
  rw [gmul_comm, gmul_xor, gmul_comm c a, gmul_comm c b]

theorem gpow_zero_base (e : Nat) : gpow 0 e = if e = 0 then 1 else 0 := rfl

@[simp] theorem gpow_alphaPow (x e : Nat) : gpow (alphaPow x) e = alphaPow (x * e) := by
  rw [gpow, gfLog?_alphaPow, alphaPow, ← Nat.mod_mul_mod]

theorem gpow_zero (a : Byte) : gpow a 0 = 1 := by
  obtain rfl | ⟨x, rfl⟩ := eq_zero_or_alphaPow a
  · rfl
  · rw [gpow_alphaPow, Nat.mul_zero]
    rfl

theorem gpow_255_mul {a : Byte} (h : a ≠ 0) (k : Nat) : gpow a (255 * k) = 1 := by
  obtain rfl | ⟨x, rfl⟩ := eq_zero_or_alphaPow a
  · exact absurd rfl h
  · rw [gpow_alphaPow, Nat.mul_left_comm, alphaPow_255_mul]

theorem gpow_add (a : Byte) (e f : Nat) : gpow a (e + f) = gmul (gpow a e) (gpow a f) := by
  obtain rfl | ⟨x, rfl⟩ := eq_zero_or_alphaPow a
  · by_cases he : e = 0
    · rw [he, Nat.zero_add, gpow_zero, one_gmul]
    · rw [gpow_zero_base, gpow_zero_base e, if_neg (by omega), if_neg he, zero_gmul]
  · simp only [gpow_alphaPow, gmul_alphaPow, Nat.mul_add]

/-- The inverse of a non-zero element is its 254th power (40_gf.md R129). -/
theorem gmul_gpow_254 {a : Byte} (h : a ≠ 0) : gmul a (gpow a 254) = 1 := by
  obtain rfl | ⟨x, rfl⟩ := eq_zero_or_alphaPow a
  · exact absurd rfl h
  · have hexp : x + x * 254 = 255 * x := by omega
    rw [gpow_alphaPow, gmul_alphaPow, hexp, alphaPow_255_mul]

theorem gpow_254_of_gfLog? {a : Byte} {x : Nat} (h : gfLog? a = some x) : gpow a 254 = gfExp ((255 - x) % 255) := by
  have hx : x < 255 := (lt_and_gfExp_of_gfLog? h).1
  have hexp : x * 254 % 255 = (255 - x) % 255 := by omega
  simp only [gpow, h, hexp]

/-! ### The carry-less product (40_gf.md R120, R123) -/

/-- `f` distributes over ⊕. -/
def XorAdditive (f : Byte → Nat) : Prop :=
  ∀ a b, f (a ^^^ b) = f a ^^^ f b

theorem XorAdditive.map_zero {f : Byte → Nat} (hf : XorAdditive f) : f 0 = 0 := by
  calc f 0
    _ = f 0 ^^^ f 0 := hf 0 0
    _ = 0 := Nat.xor_self _

/-- An element is the sum of the powers of x at its 1 bits. -/
theorem byte_eq_xor_twoPow (a : Byte) :
    ((List.range 8).map fun i => if a.getLsbD i then BitVec.twoPow 8 i else 0).foldr (· ^^^ ·) 0 = a := by
  revert a
  decide

/-- Two additive maps that agree on the eight powers of x agree. -/
theorem XorAdditive.ext {f g : Byte → Nat} (hf : XorAdditive f) (hg : XorAdditive g)
    (h : ∀ i < 8, f (BitVec.twoPow 8 i) = g (BitVec.twoPow 8 i)) (a : Byte) : f a = g a := by
  have sums : ∀ l : List Byte, (∀ c ∈ l, f c = g c) → f (l.foldr (· ^^^ ·) 0) = g (l.foldr (· ^^^ ·) 0) := by
    intro l hl
    induction l with
    | nil => exact hf.map_zero.trans hg.map_zero.symm
    | cons c rest ih =>
      obtain ⟨hc, hrest⟩ := List.forall_mem_cons.mp hl
      rw [List.foldr_cons, hf, hg, hc, ih hrest]
  rw [← byte_eq_xor_twoPow a]
  refine sums _ fun c hc => ?_
  obtain ⟨i, hi, rfl⟩ := List.mem_map.mp hc
  split
  · exact h i (List.mem_range.mp hi)
  · exact hf.map_zero.trans hg.map_zero.symm

/-- Adding `m` under a bit is additive in the sum and the bit together: the step of `polyMod` and of `polyMul`. -/
theorem xor_of_bit_xor (c c' : Bool) (m p q : Nat) :
    (if c then p ^^^ m else p) ^^^ (if c' then q ^^^ m else q) = if c ^^ c' then (p ^^^ q) ^^^ m else p ^^^ q := by
  cases c <;> cases c' <;> simp [Nat.xor_comm, Nat.xor_left_comm]

theorem polyMod_xor (p q : Nat) : polyMod (p ^^^ q) = polyMod p ^^^ polyMod q := by
  refine List.foldl_hom₂ _ (· ^^^ ·) _ _ _ p q fun acc acc' i => ?_
  rw [xor_of_bit_xor, Nat.testBit_xor]

theorem polyMul_xor_left (a a' b : Nat) : polyMul (a ^^^ a') b = polyMul a b ^^^ polyMul a' b := by
  refine List.foldl_hom₂ _ (· ^^^ ·) _ _ _ 0 0 fun acc acc' i => ?_
  rw [xor_of_bit_xor, Nat.testBit_xor]

theorem polyMul_xor_right (a b b' : Nat) : polyMul a (b ^^^ b') = polyMul a b ^^^ polyMul a b' := by
  refine List.foldl_hom₂ _ (· ^^^ ·) _ _ _ 0 0 fun acc acc' i => ?_
  rw [Nat.shiftLeft_xor_distrib]
  cases a.testBit i <;> simp [Nat.xor_comm, Nat.xor_left_comm]

/-- The table product and the reduced carry-less product are both additive in each factor, and they agree on the 64 pairs
of powers of x. -/
theorem gmul_toNat (a b : Byte) : (gmul a b).toNat = polyMod (polyMul a.toNat b.toNat) := by
  have powers : ∀ i < 8, ∀ j < 8, (gmul (BitVec.twoPow 8 i) (BitVec.twoPow 8 j)).toNat =
      polyMod (polyMul (BitVec.twoPow 8 i).toNat (BitVec.twoPow 8 j).toNat) := by decide
  have left (b : Byte) : XorAdditive fun a => polyMod (polyMul a.toNat b.toNat) := fun a a' => by
    simp only [BitVec.toNat_xor, polyMul_xor_left, polyMod_xor]
  have right (a : Byte) : XorAdditive fun b => polyMod (polyMul a.toNat b.toNat) := fun b b' => by
    simp only [BitVec.toNat_xor, polyMul_xor_right, polyMod_xor]
  have gmulLeft (b : Byte) : XorAdditive fun a => (gmul a b).toNat := fun a a' => by
    simp only [xor_gmul, BitVec.toNat_xor]
  have gmulRight (a : Byte) : XorAdditive fun b => (gmul a b).toNat := fun b b' => by
    simp only [gmul_xor, BitVec.toNat_xor]
  refine (gmulRight a).ext (right a) (fun j hj => ?_) b
  exact (gmulLeft _).ext (left _) (fun i hi => powers i hi j hj) a

/-! ### The obligations of the GF unit (40_gf.md) -/

theorem exec_gfLog_of_gfLog? {a : Byte} {x : Nat} (h : gfLog? a = some x) (s : State) :
    exec (.gfLog a) s = .next { s with gfres := BitVec.ofNat 8 x, errcode := 0, done := true, latch := none } := by
  have hexec : exec (.gfLog a) s = finish { s with gfres := BitVec.ofNat 8 x } := by
    simp only [exec, execGfLog, h]
  exact hexec.trans (finish_eq _)

theorem exec_gfLog_zero (s : State) :
    exec (.gfLog 0) s = .next { s with errcode := 9, done := true, err := true, latch := none } := by
  calc exec (.gfLog 0) s
    _ = raiseCmdError .logOfZero s := rfl
    _ = .next (s.settle 9) := raiseCmdError_of_ne (by decide) s
    _ = .next { s with errcode := 9, done := true, err := true, latch := none } := by
      rw [State.settle_of_error (by decide)]

/-- Settles O14: a non-zero operand has a logarithm, which the table gives, and 0 has none. -/
theorem gfLogReadsTheLogTable : Obligations.GfLogReadsTheLogTable := by
  unfold Obligations.GfLogReadsTheLogTable
  refine fun s => ⟨fun a ha => ?_, exec_gfLog_zero s, fun w hop => ?_, by decide⟩
  · obtain ⟨x, hlog, hx, hexp⟩ := exists_gfLog? ha
    exact ⟨x, by omega, hexp, exec_gfLog_of_gfLog? hlog s⟩
  · exact complete_of_reservedFrom (lo := 16) (.tail _ (.tail _ (.tail _ (.tail _ (.head _))))) (by decide) rfl rfl hop.symm s

/-- Settles O16: the product by tables is additive in each factor, as the carry-less product is. -/
theorem productIsCarrylessModulo11D : Obligations.ProductIsCarrylessModulo11D := by
  unfold Obligations.ProductIsCarrylessModulo11D
  refine fun a b => ⟨?_, fun x y => gmul_of_gfLog?, gmul_toNat a b⟩
  rintro (rfl | rfl)
  · exact zero_gmul b
  · exact gmul_zero a

/-- Settles O17: every element is 0 or a power of α, and the laws are those of the exponents modulo 255. -/
theorem fieldLawsHold : Obligations.FieldLawsHold := by
  unfold Obligations.FieldLawsHold
  refine ⟨fun a b c => ?_, fun a b c => ?_, gmul_xor, fun a => gmul_gpow_254, fun a x => gpow_254_of_gfLog?, gpow_add⟩
  · exact ⟨BitVec.xor_assoc a b c, BitVec.xor_comm a b, BitVec.xor_zero, BitVec.xor_self⟩
  · exact ⟨gmul_assoc a b c, gmul_comm a b, gmul_one a, gmul_zero a⟩

/-- Settles O11: GF.MUL has the reserved bits 31:24, and the corner cases are laws of the product. -/
theorem gfMulWritesTheProduct : Obligations.GfMulWritesTheProduct := by
  unfold Obligations.GfMulWritesTheProduct
  refine fun s => ⟨fun a b => finish_eq _, fun w hop => ?_, fun a b => ?_, by decide⟩
  · have hcomplete := complete_of_reservedFrom (lo := 24) (.tail _ (.head _)) (by decide) rfl rfl hop.symm s
    have hfield : w.field 31 24 = 0 ↔ w.byteAt 24 = 0 := Word.field_eq_zero_iff
    rwa [hfield, Ne, hfield] at hcomplete
  · exact ⟨zero_gmul b, gmul_zero a, one_gmul b, gmul_comm a b⟩

/-- Settles O12: GF.POW has no reserved bit, and a power of a non-zero element has period 255. -/
theorem gfPowWritesThePower : Obligations.GfPowWritesThePower := by
  unfold Obligations.GfPowWritesThePower
  refine fun s => ⟨fun a e => finish_eq _, fun w hop => ?_, gpow_zero, fun e he => ?_, fun a k ha => gpow_255_mul ha k,
    by decide⟩
  · have hcomplete := complete_of_reservedFrom (lo := 32) (.tail _ (.tail _ (.head _))) (by decide) rfl rfl hop.symm s
    exact hcomplete.1 (Word.field_31_eq_zero_iff.mpr fun k hk => BitVec.getLsbD_of_ge w k hk)
  · rw [gpow_zero_base, if_neg (by omega)]

/-- Settles O13: GF.EXP has the reserved bits 31:16. -/
theorem gfExpReadsTheAntilogTable : Obligations.GfExpReadsTheAntilogTable := by
  unfold Obligations.GfExpReadsTheAntilogTable
  refine fun s => ⟨fun i => finish_eq _, fun w hop => ?_, by decide⟩
  exact complete_of_reservedFrom (lo := 16) (.tail _ (.tail _ (.tail _ (.head _)))) (by decide) rfl rfl hop.symm s

/-- Settles O15: each entry is α times the one before it, and the log table inverts the antilog table. -/
theorem tablesArePowersOfAlpha : Obligations.TablesArePowersOfAlpha := by
  unfold Obligations.TablesArePowersOfAlpha
  refine ⟨gfExp_zero, fun i hi => ?_, gfExp_255, fun a ha => ?_, gfLog?_zero⟩
  · rw [gfExp_succ (by omega), timesAlpha_toNat]
  · obtain ⟨x, hlog, hx, hexp⟩ := exists_gfLog? ha
    refine ⟨x, hlog, by omega, hexp, fun j hj hja => ?_⟩
    have hj' : gfLog? a = some j := hja ▸ gfLog?_gfExp (by omega)
    exact Option.some.inj (hj'.symm.trans hlog)

end Sys2Proof.Machine

namespace Sys2Proof.Machine

/-! ### Coefficient lists under ⊕ (41_rs.md R141, R144) -/

@[simp] theorem length_addBytes (d e : List Byte) : (addBytes d e).length = min d.length e.length :=
  List.length_zipWith

theorem addBytes_append {d e : List Byte} (h : d.length = e.length) (d' e' : List Byte) :
    addBytes (d ++ d') (e ++ e') = addBytes d e ++ addBytes d' e' :=
  List.zipWith_append h

theorem addBytes_addBytes_addBytes_comm (a b c d : List Byte) :
    addBytes (addBytes a b) (addBytes c d) = addBytes (addBytes a c) (addBytes b d) := by
  refine List.ext_getElem ?_ fun i _ _ => ?_
  · simp only [length_addBytes, min_min_min_comm]
  · simp only [addBytes, List.getElem_zipWith, gadd]
    ac_rfl

@[simp] theorem addBytes_replicate_zero (d : List Byte) : addBytes d (List.replicate d.length 0) = d := by
  refine List.ext_getElem (by simp) fun i _ _ => ?_
  simp only [addBytes, List.getElem_zipWith, List.getElem_replicate]
  exact BitVec.xor_zero

theorem addBytes_replicate_zero_zero (n : Nat) :
    addBytes (List.replicate n 0) (List.replicate n 0) = List.replicate n 0 := by
  simpa using addBytes_replicate_zero (List.replicate n 0)

/-- A fold whose step is additive in the accumulator and the byte together is additive in its start and its bytes
together. The step need be additive only where `P` holds, which it keeps. -/
theorem foldl_addBytes {β : Type} {step : β → Byte → β} {add : β → β → β} {P : β → Prop}
    (keeps : ∀ r b, P r → P (step r b))
    (additive : ∀ r s b c, P r → P s → step (add r s) (gadd b c) = add (step r b) (step s c))
    {d e : List Byte} (h : d.length = e.length) {r s : β} (hr : P r) (hs : P s) :
    (addBytes d e).foldl step (add r s) = add (d.foldl step r) (e.foldl step s) := by
  induction d generalizing e r s with
  | nil =>
    obtain rfl := List.length_eq_zero_iff.mp h.symm
    rfl
  | cons b d ih =>
    obtain ⟨c, e, rfl⟩ := List.exists_cons_of_length_eq_add_one h.symm
    calc (addBytes (b :: d) (c :: e)).foldl step (add r s)
      _ = (addBytes d e).foldl step (step (add r s) (gadd b c)) := rfl
      _ = (addBytes d e).foldl step (add (step r b) (step s c)) := by rw [additive r s b c hr hs]
      _ = add ((b :: d).foldl step r) ((c :: e).foldl step s) := ih (Nat.succ.inj h) (keeps r b hr) (keeps s c hs)

/-- Every coefficient multiplied by one element. -/
def scaleBytes (cs : List Byte) (f : Byte) : List Byte :=
  cs.map fun c => gmul c f

@[simp] theorem length_scaleBytes (cs : List Byte) (f : Byte) : (scaleBytes cs f).length = cs.length :=
  List.length_map _

theorem scaleBytes_zero (cs : List Byte) : scaleBytes cs 0 = List.replicate cs.length 0 := by
  simp only [scaleBytes, gmul_zero, List.map_const']

theorem scaleBytes_gadd (cs : List Byte) (f g : Byte) :
    scaleBytes cs (gadd f g) = addBytes (scaleBytes cs f) (scaleBytes cs g) := by
  simp only [scaleBytes, addBytes, gadd, gmul_xor, List.zipWith_map, List.zipWith_self]

/-! ### The value of a polynomial (41_rs.md R144) -/

theorem polyEval_append_zero (cs : List Byte) (x : Byte) : polyEval (cs ++ [0]) x = gmul (polyEval cs x) x := by
  rw [polyEval, List.foldl_append]
  exact BitVec.xor_zero

theorem polyEval_zero_cons (cs : List Byte) (x : Byte) : polyEval (0 :: cs) x = polyEval cs x := by
  rw [polyEval, List.foldl_cons, zero_gmul]
  rfl

theorem polyEval_replicate_zero_append (k : Nat) (cs : List Byte) (x : Byte) :
    polyEval (List.replicate k 0 ++ cs) x = polyEval cs x := by
  induction k with
  | zero => rfl
  | succ k ih => rw [List.replicate_succ, List.cons_append, polyEval_zero_cons, ih]

theorem polyEval_scaleBytes (cs : List Byte) (f x : Byte) : polyEval (scaleBytes cs f) x = gmul (polyEval cs x) f := by
  have step (acc c : Byte) : gadd (gmul (gmul acc f) x) (gmul c f) = gmul (gadd (gmul acc x) c) f := by
    rw [gadd, gadd, xor_gmul, gmul_assoc, gmul_comm f, ← gmul_assoc]
  calc polyEval (scaleBytes cs f) x
    _ = cs.foldl (fun acc c => gadd (gmul acc x) (gmul c f)) (gmul 0 f) := by
      rw [polyEval, scaleBytes, List.foldl_map, zero_gmul]
    _ = gmul (polyEval cs x) f := List.foldl_hom (fun acc => gmul acc f) step

theorem polyEval_addBytes {d e : List Byte} (h : d.length = e.length) (x : Byte) :
    polyEval (addBytes d e) x = gadd (polyEval d x) (polyEval e x) := by
  refine foldl_addBytes (step := fun acc c => gadd (gmul acc x) c) (add := gadd) (P := fun _ => True) (r := 0) (s := 0)
    (fun _ _ _ => trivial) (fun r s b c _ _ => ?_) h trivial trivial
  simp only [gadd, xor_gmul]
  ac_rfl

/-! ### The generator polynomial (41_rs.md R141) -/

theorem mulRoot_eq (g : List Byte) (r : Byte) : mulRoot g r = addBytes (g ++ [0]) (0 :: scaleBytes g r) := rfl

@[simp] theorem length_mulRoot (g : List Byte) (r : Byte) : (mulRoot g r).length = g.length + 1 := by
  simp [mulRoot_eq]

/-- Multiplying by (x ⊕ r) multiplies the value at x by x ⊕ r. -/
theorem polyEval_mulRoot (g : List Byte) (r x : Byte) : polyEval (mulRoot g r) x = gmul (polyEval g x) (gadd x r) := by
  rw [mulRoot_eq, polyEval_addBytes (by simp), polyEval_append_zero, polyEval_zero_cons, polyEval_scaleBytes, gadd,
    gadd, gmul_xor]

@[simp] theorem length_genPoly (n : Nat) : (genPoly n).length = n + 1 := by
  induction n with
  | zero => rfl
  | succ n ih => rw [genPoly, length_mulRoot, ih]

theorem head?_genPoly (n : Nat) : (genPoly n).head? = some 1 := by
  induction n with
  | zero => rfl
  | succ n ih =>
    obtain ⟨taps, htaps⟩ := List.head?_eq_some_iff.mp ih
    rw [genPoly, htaps]
    rfl

/-- G_n without its leading 1, which the divider shifts by (41_rs.md R143). -/
def genTaps (n : Nat) : List Byte :=
  (genPoly n).drop 1

theorem genPoly_eq_one_cons (n : Nat) : genPoly n = 1 :: genTaps n := by
  obtain ⟨taps, htaps⟩ := List.head?_eq_some_iff.mp (head?_genPoly n)
  rw [genTaps, htaps]
  rfl

@[simp] theorem length_genTaps (n : Nat) : (genTaps n).length = n := by
  simp [genTaps]

theorem polyEval_genPoly {n i : Nat} (h : i < n) : polyEval (genPoly n) (gfExp i) = 0 := by
  induction n with
  | zero => exact absurd h (Nat.not_lt_zero i)
  | succ n ih =>
    rw [genPoly, polyEval_mulRoot]
    obtain hlt | rfl := Nat.lt_succ_iff_lt_or_eq.mp h
    · rw [ih hlt, zero_gmul]
    · rw [gadd, BitVec.xor_self]
      exact gmul_zero _

/-! ### The divider (41_rs.md R143, R144) -/

theorem rsShift_eq (taps rem : List Byte) (b : Byte) :
    rsShift taps rem b = addBytes (rem.drop 1 ++ [0]) (scaleBytes taps (gadd b (rem.headD 0))) :=
  List.zipWith_map_right.symm

theorem length_rsShift {taps rem : List Byte} (h : rem.length = taps.length) (b : Byte) :
    (rsShift taps rem b).length = taps.length := by
  simp only [rsShift_eq, length_addBytes, length_scaleBytes, List.length_append, List.length_drop,
    List.length_singleton]
  omega

/-- The divider's step on a register that holds a coefficient: the data byte and the new register are the old register
shifted up one coefficient, plus a multiple of the monic generator. -/
theorem cons_rsShift (taps rest : List Byte) (r b : Byte) :
    b :: rsShift taps (r :: rest) b = addBytes (r :: rest ++ [0]) (scaleBytes (1 :: taps) (gadd b r)) := by
  have hhead : gadd r (gmul 1 (gadd b r)) = b := by
    rw [one_gmul, gadd, gadd, BitVec.xor_comm b, ← BitVec.xor_assoc, BitVec.xor_self, BitVec.zero_xor]
  calc b :: rsShift taps (r :: rest) b
    _ = gadd r (gmul 1 (gadd b r)) :: addBytes (rest ++ [0]) (scaleBytes taps (gadd b r)) := by
      rw [hhead, rsShift_eq]
      rfl
    _ = addBytes (r :: rest ++ [0]) (scaleBytes (1 :: taps) (gadd b r)) := rfl

theorem rsShift_replicate_zero (taps : List Byte) :
    rsShift taps (List.replicate taps.length 0) 0 = List.replicate taps.length 0 := by
  cases taps with
  | nil => rfl
  | cons t taps =>
    have hzeros : (List.replicate taps.length (0 : Byte)) ++ [0] = List.replicate (taps.length + 1) 0 :=
      List.replicate_succ'.symm
    calc rsShift (t :: taps) (List.replicate (taps.length + 1) 0) 0
      _ = addBytes (List.replicate taps.length 0 ++ [0]) (scaleBytes (t :: taps) (gadd 0 0)) := by
        rw [rsShift_eq, List.replicate_succ]
        rfl
      _ = List.replicate (taps.length + 1) 0 := by
        rw [hzeros, gadd, BitVec.xor_self]
        exact (congrArg _ (scaleBytes_zero _)).trans (addBytes_replicate_zero_zero _)

theorem rsShift_addBytes (taps : List Byte) {r s : List Byte} (h : r.length = s.length) (b c : Byte) :
    rsShift taps (addBytes r s) (gadd b c) = addBytes (rsShift taps r b) (rsShift taps s c) := by
  have hshift : (addBytes r s).drop 1 ++ [0] = addBytes (r.drop 1 ++ [0]) (s.drop 1 ++ [0]) := by
    rw [addBytes_append (by simp [h]), addBytes, List.drop_zipWith]
    rfl
  have hhead : (addBytes r s).headD 0 = gadd (r.headD 0) (s.headD 0) := by
    cases r with
    | nil =>
      obtain rfl := List.length_eq_zero_iff.mp h.symm
      rfl
    | cons x r =>
      obtain ⟨y, s, rfl⟩ := List.exists_cons_of_length_eq_add_one h.symm
      rfl
  have hfeedback : gadd (gadd b c) (gadd (r.headD 0) (s.headD 0)) =
      gadd (gadd b (r.headD 0)) (gadd c (s.headD 0)) := by
    simp only [gadd]
    ac_rfl
  simp only [rsShift_eq]
  rw [hshift, hhead, hfeedback, scaleBytes_gadd, addBytes_addBytes_addBytes_comm]

theorem rsRem_eq (d : List Byte) (n : Nat) : rsRem d n = d.foldl (rsShift (genTaps n)) (List.replicate n 0) := rfl

theorem rsRem_append_singleton (d : List Byte) (b : Byte) (n : Nat) :
    rsRem (d ++ [b]) n = rsShift (genTaps n) (rsRem d n) b := by
  rw [rsRem_eq, List.foldl_append]
  rfl

@[simp] theorem length_rsRem (d : List Byte) (n : Nat) : (rsRem d n).length = n := by
  induction d using List.reverseRecOn with
  | nil => exact List.length_replicate
  | append_singleton d b ih => rw [rsRem_append_singleton, length_rsShift (by rw [ih, length_genTaps]), length_genTaps]

/-- One more data byte shifts the codeword up one coefficient and adds a multiple of the generator to its end. -/
theorem append_rsRem_append_singleton (d : List Byte) (b : Byte) {n : Nat} (hn : 0 < n) :
    ∃ f, d ++ [b] ++ rsRem (d ++ [b]) n =
      addBytes (d ++ rsRem d n ++ [0]) (List.replicate d.length 0 ++ scaleBytes (genPoly n) f) := by
  obtain ⟨r, rest, hrem⟩ := List.exists_cons_of_length_pos (l := rsRem d n) (by rwa [length_rsRem])
  refine ⟨gadd b r, ?_⟩
  rw [rsRem_append_singleton, hrem, List.append_assoc, List.singleton_append, cons_rsShift, ← genPoly_eq_one_cons,
    List.append_assoc, addBytes_append List.length_replicate.symm, addBytes_replicate_zero]

theorem polyEval_append_rsRem (d : List Byte) {n i : Nat} (h : i < n) : polyEval (d ++ rsRem d n) (gfExp i) = 0 := by
  induction d using List.reverseRecOn with
  | nil =>
    have hzero := polyEval_replicate_zero_append n [] (gfExp i)
    rwa [List.append_nil] at hzero
  | append_singleton d b ih =>
    obtain ⟨f, hcode⟩ := append_rsRem_append_singleton d b (Nat.zero_lt_of_lt h)
    rw [hcode, polyEval_addBytes (by simp), polyEval_append_zero, ih, polyEval_replicate_zero_append,
      polyEval_scaleBytes, polyEval_genPoly h, zero_gmul, zero_gmul]
    rfl

theorem rsRem_addBytes {d e : List Byte} (h : d.length = e.length) (n : Nat) :
    rsRem (addBytes d e) n = addBytes (rsRem d n) (rsRem e n) := by
  have hzero : (List.replicate n (0 : Byte)).length = (genTaps n).length := by simp
  have hsum := foldl_addBytes (step := rsShift (genTaps n)) (add := addBytes)
    (P := fun rem => rem.length = (genTaps n).length) (fun _ b hr => length_rsShift hr b)
    (fun _ _ b c hr hs => rsShift_addBytes (genTaps n) (hr.trans hs.symm) b c) h hzero hzero
  rwa [addBytes_replicate_zero_zero] at hsum

theorem rsRem_replicate_zero_append (k : Nat) (d : List Byte) (n : Nat) :
    rsRem (List.replicate k 0 ++ d) n = rsRem d n := by
  have hstep : rsShift (genTaps n) (List.replicate n 0) 0 = List.replicate n 0 := by
    simpa using rsShift_replicate_zero (genTaps n)
  induction k with
  | zero => rfl
  | succ k ih => rw [List.replicate_succ, List.cons_append, rsRem_eq, List.foldl_cons, hstep, ← rsRem_eq, ih]

theorem rsRem_replicate_zero (k n : Nat) : rsRem (List.replicate k 0) n = List.replicate n 0 := by
  have hzero := rsRem_replicate_zero_append k [] n
  rwa [List.append_nil] at hzero

/-- Settles O21: each data byte adds a multiple of the generator to the codeword, which keeps the generator's roots, and
the divider's step is additive and keeps the zero register on a zero byte. -/
theorem remainderHasItsProperties : Obligations.RemainderHasItsProperties := by
  unfold Obligations.RemainderHasItsProperties
  intro n _
  refine ⟨fun d i hi => ⟨length_rsRem d n, polyEval_append_rsRem d hi⟩, fun d e h => rsRem_addBytes h n,
    fun len => rsRem_replicate_zero len n, fun k d => rsRem_replicate_zero_append k d n⟩

end Sys2Proof.Machine

namespace Sys2Proof.Machine

/-! ### Bit streams and bytes (00_scope.md R13, 42_assemble.md R165) -/

/-- Eight bits make a byte, and the byte gives them back, first one first. -/
theorem byteBits_byteOf {bits : List Bool} (h : bits.length = 8) : byteBits (byteOf bits) = bits := by
  have table : ∀ b : Vector Bool 8, byteBits (byteOf b.toList) = b.toList := by decide
  exact table ⟨bits.toArray, h⟩

@[simp] theorem length_byteBits (v : Byte) : (byteBits v).length = 8 := rfl

theorem streamOf_append (a b : List Byte) : streamOf (a ++ b) = streamOf a ++ streamOf b :=
  List.flatMap_append

@[simp] theorem length_bytesOf (n : Nat) (bits : List Bool) : (bytesOf n bits).length = n := by
  induction n generalizing bits with
  | zero => rfl
  | succ n ih => rw [bytesOf, List.length_cons, ih]

/-- Bytes cut from a stream of whole bytes hold that stream. -/
theorem streamOf_bytesOf {n : Nat} {bits : List Bool} (h : bits.length = 8 * n) : streamOf (bytesOf n bits) = bits := by
  induction n generalizing bits with
  | zero => exact (List.length_eq_zero_iff.mp h).symm
  | succ n ih =>
    have hfirst : (bits.take 8).length = 8 := by rw [List.length_take]; omega
    have hrest : (bits.drop 8).length = 8 * n := by rw [List.length_drop]; omega
    calc streamOf (bytesOf (n + 1) bits)
      _ = byteBits (byteOf (bits.take 8)) ++ streamOf (bytesOf n (bits.drop 8)) := rfl
      _ = bits.take 8 ++ bits.drop 8 := by rw [byteBits_byteOf hfirst, ih hrest]
      _ = bits := List.take_append_drop 8 bits

/-! ### Padding (42_assemble.md R165) -/

@[simp] theorem length_padBytes (n : Nat) : (padBytes n).length = n := by
  induction n using padBytes.induct with
  | case1 => rfl
  | case2 => rfl
  | case3 n ih => rw [padBytes, List.length_cons, List.length_cons, ih]

theorem padBytes_getElem? {n k : Nat} (h : k < n) : (padBytes n)[k]? = some (if k % 2 = 0 then 0xEC else 0x11) := by
  induction n using padBytes.induct generalizing k with
  | case1 => exact absurd h (Nat.not_lt_zero k)
  | case2 =>
    obtain rfl := Nat.lt_one_iff.mp h
    rfl
  | case3 n ih =>
    match k with
    | 0 => rfl
    | 1 => rfl
    | k + 2 =>
      rw [padBytes, List.getElem?_cons_succ, List.getElem?_cons_succ, ih (by omega), Nat.add_mod_right]

/-- The number of bytes that hold a stream of `len` bits and its terminator. -/
def endedBytes (len ndata : Nat) : Nat :=
  ceilDiv8 (len + min 4 (8 * ndata - len))

theorem endedBytes_eq (len ndata : Nat) : endedBytes len ndata = ceilDiv8 (len + min 4 (8 * ndata - len)) := rfl

theorem le_endedBytes (len ndata : Nat) : len + min 4 (8 * ndata - len) ≤ 8 * endedBytes len ndata := by
  unfold endedBytes ceilDiv8
  omega

/-- The capacity is whole bytes, so aligning to a byte does not exceed it. -/
theorem endedBytes_le {len ndata : Nat} (h : len ≤ 8 * ndata) : endedBytes len ndata ≤ ndata := by
  unfold endedBytes ceilDiv8
  omega

/-- The terminator and the alignment are one run of zero bits. -/
theorem padStream_eq (stream : List Bool) (ndata : Nat) :
    padStream stream ndata =
      bytesOf (endedBytes stream.length ndata)
        (stream ++ List.replicate (8 * endedBytes stream.length ndata - stream.length) false) ++
      padBytes (ndata - endedBytes stream.length ndata) := by
  have hzeros : min 4 (8 * ndata - stream.length) +
      (8 * endedBytes stream.length ndata - (stream.length + min 4 (8 * ndata - stream.length))) =
      8 * endedBytes stream.length ndata - stream.length := by
    have hle := le_endedBytes stream.length ndata
    omega
  simp only [padStream, List.length_append, List.length_replicate, ← endedBytes_eq]
  rw [List.append_assoc, List.replicate_append_replicate, hzeros]

theorem length_padStream {stream : List Bool} {ndata : Nat} (h : stream.length ≤ 8 * ndata) :
    (padStream stream ndata).length = ndata := by
  rw [padStream_eq, List.length_append, length_bytesOf, length_padBytes]
  exact Nat.add_sub_cancel' (endedBytes_le h)

/-- The padded codewords hold the stream, zero bits to the byte boundary past the terminator, and the pad codewords. -/
theorem streamOf_padStream (stream : List Bool) (ndata : Nat) :
    streamOf (padStream stream ndata) =
      stream ++ (List.replicate (8 * endedBytes stream.length ndata - stream.length) false ++
        streamOf (padBytes (ndata - endedBytes stream.length ndata))) := by
  have hle := le_endedBytes stream.length ndata
  rw [padStream_eq, streamOf_append, streamOf_bytesOf, List.append_assoc]
  rw [List.length_append, List.length_replicate]
  omega

theorem padStream_getElem?_pad (stream : List Bool) {ndata k : Nat} (h : endedBytes stream.length ndata + k < ndata) :
    (padStream stream ndata)[endedBytes stream.length ndata + k]? = some (if k % 2 = 0 then 0xEC else 0x11) := by
  rw [padStream_eq, List.getElem?_append_right (by simp), length_bytesOf, Nat.add_sub_cancel_left,
    padBytes_getElem? (by omega)]

/-- Settles O24: terminator and alignment are one run of zero bits that ends at a byte boundary within the capacity, and
bytes cut from whole bytes of bits hold those bits. -/
theorem paddingFollowsTheRule : Obligations.PaddingFollowsTheRule := by
  unfold Obligations.PaddingFollowsTheRule
  intro stream ndata h
  refine ⟨length_padStream h, endedBytes_le h, ?_, fun t hlow hhigh => ?_, fun k => padStream_getElem?_pad stream⟩
  · rw [streamOf_padStream, List.take_left]
  · have hzero : t - stream.length < 8 * endedBytes stream.length ndata - stream.length :=
      Nat.sub_lt_sub_right hlow hhigh
    rw [streamOf_padStream, List.getElem?_append_right hlow, List.getElem?_append_left (by simpa using hzero),
      List.getElem?_replicate_of_lt hzero]

/-! ### The parameter tables (42_assemble.md R170 to R174) -/

/-- A higher EC level leaves no more data codewords. -/
theorem ndataOf_antitone_level : ∀ v ≤ 40, 1 ≤ v → ∀ e ≤ 2, ndataOf v (e + 1) ≤ ndataOf v e := by decide

theorem ndataOf_lt_succ : ∀ v ≤ 39, 1 ≤ v → ∀ e ≤ 3, ndataOf v e < ndataOf (v + 1) e := by decide

theorem nbOf_range : ∀ v ≤ 40, 1 ≤ v → ∀ e ≤ 3, 1 ≤ nbOf v e ∧ nbOf v e ≤ 81 := by decide

theorem ecbOf_range : ∀ v ≤ 40, 1 ≤ v → ∀ e ≤ 3, 7 ≤ ecbOf v e ∧ ecbOf v e ≤ 30 := by decide

theorem nbOf_mul_ecbOf_le : ∀ v ≤ 40, 1 ≤ v → ∀ e ≤ 3, nbOf v e * ecbOf v e ≤ 2430 := by decide

theorem dshortOf_range : ∀ v ≤ 40, 1 ≤ v → ∀ e ≤ 3, 9 ≤ dshortOf v e ∧ dshortOf v e ≤ 122 := by decide

theorem ncwOf_le : ∀ v ≤ 40, ncwOf v ≤ 3706 := by decide

theorem ndataOf_le : ∀ v ≤ 40, ∀ e ≤ 3, ndataOf v e ≤ 2956 := by decide

/-- The short blocks are the blocks that take none of the NCW mod NB codewords left over (42_assemble.md R172). -/
theorem nshortOf_range {v e : Nat} (h : 1 ≤ nbOf v e) : 1 ≤ nshortOf v e ∧ nshortOf v e ≤ nbOf v e :=
  ⟨Nat.sub_pos_of_lt (Nat.mod_lt _ h), Nat.sub_le _ _⟩

/-- Settles O23: the tables are finite and checked entry by entry; NSHORT lies between 1 and NB by its definition. -/
theorem parameterTablesAreConsistent : Obligations.ParameterTablesAreConsistent := by
  unfold Obligations.ParameterTablesAreConsistent
  refine ⟨fun v h1 h40 => ?_, fun v e h1 h39 => ndataOf_lt_succ v h39 h1 e, fun v e h1 h40 he => ?_, by decide⟩
  · have hlevel := ndataOf_antitone_level v h40 h1
    exact ⟨hlevel 0 (by decide), hlevel 1 (by decide), hlevel 2 (by decide)⟩
  · obtain ⟨hshort, hshort'⟩ := nshortOf_range (nbOf_range v h40 h1 e he).1
    obtain ⟨hdata, hdata'⟩ := dshortOf_range v h40 h1 e he
    obtain ⟨hec, hec'⟩ := ecbOf_range v h40 h1 e he
    exact ⟨hshort, hshort', hdata, hdata', hec, hec', ndataOf_le v h40 e he, ncwOf_le v h40,
      nbOf_mul_ecbOf_le v h40 h1 e he⟩

end Sys2Proof.Machine

namespace Sys2Proof

/-! ### Words with reserved bits between their operands (30_encoding.md R95, R100) -/

/-- The mask of the bits `hi` to `lo`. -/
def fieldMask (hi lo : Nat) : Word :=
  (BitVec.allOnes (hi + 1 - lo)).setWidth 32 <<< lo

theorem fieldMask_getLsbD {hi lo k : Nat} (hk : k < 32) :
    (fieldMask hi lo).getLsbD k = (decide (lo ≤ k) && decide (k ≤ hi)) := by
  rw [fieldMask, BitVec.getLsbD_shiftLeft, BitVec.getLsbD_setWidth, BitVec.getLsbD_allOnes, Bool.eq_iff_iff]
  simp only [Bool.and_eq_true, Bool.not_eq_true', decide_eq_true_eq, decide_eq_false_iff_not]
  omega

theorem Word.field_eq_zero_iff_and_fieldMask {hi lo : Nat} {w : Word} :
    w.field hi lo = 0 ↔ w &&& fieldMask hi lo = 0 := by
  rw [Word.field_eq_zero_iff]
  refine ⟨fun h => BitVec.eq_of_getLsbD_eq fun k hk => ?_, fun h => BitVec.eq_of_getLsbD_eq fun j hj => ?_⟩
  · have hbit := congrArg (BitVec.getLsbD · (k - lo)) h
    rw [BitVec.getLsbD_and, fieldMask_getLsbD hk]
    by_cases hin : lo ≤ k ∧ k ≤ hi
    · have hj : k - lo < hi + 1 - lo := by omega
      simpa [BitVec.getLsbD_extractLsb', hin, hj] using hbit
    · rw [← Bool.decide_and, decide_eq_false hin, Bool.and_false]
      exact BitVec.getLsbD_zero.symm
  · have hbit := congrArg (BitVec.getLsbD · (lo + j)) h
    by_cases hk : lo + j < 32
    · rw [BitVec.getLsbD_and, fieldMask_getLsbD hk] at hbit
      simpa [BitVec.getLsbD_extractLsb', hj, show lo + j ≤ hi by omega] using hbit
    · simp [BitVec.getLsbD_extractLsb', BitVec.getLsbD_of_ge w (lo + j) (by omega)]

/-- Both parts of a mask are matched at once, where the second part is 0 in the match. -/
theorem and_or_eq_iff {w a b bits : Word} (ha : bits &&& a = bits) (hb : bits &&& b = 0#32) :
    w &&& (a ||| b) = bits ↔ w &&& a = bits ∧ w &&& b = 0#32 := by
  have habsorb (c d : Word) : (c ||| d) &&& c = c := by
    refine BitVec.eq_of_getLsbD_eq fun k _ => ?_
    rw [BitVec.getLsbD_and, BitVec.getLsbD_or, Bool.and_comm]
    exact inf_sup_self
  refine ⟨?_, fun ⟨ha', hb'⟩ => ?_⟩
  · rintro rfl
    rw [BitVec.and_assoc, habsorb] at ha
    rw [BitVec.and_assoc, BitVec.or_comm, habsorb] at hb
    exact ⟨BitVec.or_comm a b ▸ ha, hb⟩
  · rw [BitVec.and_or_distrib_left, ha', hb', BitVec.or_zero]

end Sys2Proof

namespace Sys2Proof.Machine

/-! ### Register words (10_state.md R24, R38) -/

theorem regField_toNat {n lo : Nat} (v : BitVec n) (h : lo + n ≤ 32) : (regField lo v).toNat = 2 ^ lo * v.toNat := by
  have hv : v.toNat < 2 ^ 32 := lt_of_lt_of_le v.isLt (Nat.pow_le_pow_right (by decide) (by omega))
  have hshift : v.toNat * 2 ^ lo < 2 ^ 32 :=
    calc v.toNat * 2 ^ lo
      _ < 2 ^ n * 2 ^ lo := Nat.mul_lt_mul_of_pos_right v.isLt (Nat.two_pow_pos lo)
      _ = 2 ^ (lo + n) := by rw [← Nat.pow_add, Nat.add_comm]
      _ ≤ 2 ^ 32 := Nat.pow_le_pow_right (by decide) h
  rw [regField, BitVec.toNat_shiftLeft, BitVec.toNat_setWidth, Nat.mod_eq_of_lt hv, Nat.shiftLeft_eq,
    Nat.mod_eq_of_lt hshift, Nat.mul_comm]

/-- A register of one field, at bit 0, reads as the field's value (10_state.md R24). -/
theorem regField_zero_toNat {n : Nat} (v : BitVec n) (h : n ≤ 32) : (regField 0 v).toNat = v.toNat := by
  rw [regField_toNat v (by omega), Nat.pow_zero, Nat.one_mul]

/-- A field put above the 1 bits of a word adds up with it. -/
theorem or_regField_toNat {n lo : Nat} {w : Word} (hw : w.toNat < 2 ^ lo) (v : BitVec n) (h : lo + n ≤ 32) :
    (w ||| regField lo v).toNat = w.toNat + 2 ^ lo * v.toNat := by
  rw [BitVec.toNat_or, regField_toNat v h, Nat.or_comm, ← Nat.two_pow_add_eq_or_of_lt hw, Nat.add_comm]

/-- The four byte fields of BLOCKS stand side by side (10_state.md R38). -/
theorem Params.blocksWord_toNat (p : Params) :
    p.blocksWord.toNat = p.nb.toNat + 256 * p.ecb.toNat + 65536 * p.nshort.toNat + 16777216 * p.dshort.toNat := by
  have hnb : (regField 0 p.nb).toNat = p.nb.toNat := regField_zero_toNat p.nb (by decide)
  have hecb := or_regField_toNat (lo := 8) (w := regField 0 p.nb) (by rw [hnb]; exact p.nb.isLt) p.ecb (by decide)
  have hnshort := or_regField_toNat (lo := 16) (w := regField 0 p.nb ||| regField 8 p.ecb) (by omega) p.nshort (by decide)
  have hdshort := or_regField_toNat (lo := 24) (w := regField 0 p.nb ||| regField 8 p.ecb ||| regField 16 p.nshort)
    (by omega) p.dshort (by decide)
  rw [Params.blocksWord]
  omega

/-! ### The symbol parameters fit their registers (10_state.md R33 to R39, 42_assemble.md R172) -/

/-- Each register of PARAMS(V, level) holds its value whole. -/
structure ParamsHold (v e : Nat) (p : Params) : Prop where
  version : p.version.toNat = v
  eclevel : p.eclevel.toNat = e
  side : p.side.toNat = sideOf v
  ndata : p.ndata.toNat = ndataOf v e
  ncw : p.ncw.toNat = ncwOf v
  nb : p.nb.toNat = nbOf v e
  ecb : p.ecb.toNat = ecbOf v e
  nshort : p.nshort.toNat = nshortOf v e
  dshort : p.dshort.toNat = dshortOf v e
  rembits : p.rembits.toNat = remOf v

theorem paramsHold_paramsOf {v e : Nat} (h1 : 1 ≤ v) (h40 : v ≤ 40) (he : e ≤ 3) : ParamsHold v e (paramsOf v e) := by
  have hnb := nbOf_range v h40 h1 e he
  have hnshort := nshortOf_range hnb.1
  have hecb := ecbOf_range v h40 h1 e he
  have hdshort := dshortOf_range v h40 h1 e he
  have hndata := ndataOf_le v h40 e he
  have hncw := ncwOf_le v h40
  have hside : sideOf v < 2 ^ 8 := by unfold sideOf; omega
  have hrem : remOf v < 2 ^ 3 := Nat.mod_lt _ (by decide)
  constructor <;> exact BitVec.toNat_ofNat _ _ |>.trans (Nat.mod_eq_of_lt (by omega))

/-! ### QR.BEGIN (42_assemble.md R160) -/

/-- Every command error but CapacityMismatch only reports its code, with DONE and ERR (45_control.md R262). -/
theorem raiseCmdError_eq {e : CmdError} (h : e ≠ .capacityMismatch) (s : State) :
    raiseCmdError e s = .next { s with errcode := e.code, done := true, err := true, latch := none } := by
  rw [raiseCmdError_of_ne h, State.settle_of_error e.code_ne_zero]

theorem exec_qrBegin_of_invalid_version {v : Nat} (h : v < 1 ∨ 40 < v) (e : Nat) (s : State) :
    exec (.qrBegin v e) s = .next { s with errcode := 2, done := true, err := true, latch := none } :=
  (if_pos h).trans (raiseCmdError_eq (e := .invalidVersion) (by decide) s)

theorem exec_qrBegin_of_invalid_level {v e : Nat} (h1 : 1 ≤ v) (h40 : v ≤ 40) (he : 3 < e) (s : State) :
    exec (.qrBegin v e) s = .next { s with errcode := 3, done := true, err := true, latch := none } :=
  ((if_neg (by omega)).trans (if_pos he)).trans (raiseCmdError_eq (e := .invalidEcLevel) (by decide) s)

theorem exec_qrBegin_of_legal {v e : Nat} (h1 : 1 ≤ v) (h40 : v ≤ 40) (he : e ≤ 3) (s : State) :
    exec (.qrBegin v e) s = .next { s with
      params := paramsOf v e, scores := Scores.zero, format := 0, verinfo := 0, phase := .segmented, errcode := 0,
      done := true, latch := none } :=
  ((if_neg (by omega)).trans (if_neg (by omega))).trans (finish_eq _)

/-- COMPLETE() on a word of QR.BEGIN's OPCODE, whose reserved bits are 15:14 and 31:19 (30_encoding.md R95, R102). -/
theorem complete_of_opcode_qrBegin {w : Word} (hop : w.byteAt 0 = 0x20) (s : State) :
    (w.field 15 14 = 0 → w.field 31 19 = 0 → complete w s = exec (.qrBegin (w.field 13 8) (w.field 18 16)) s) ∧
    (w.field 15 14 ≠ 0 ∨ w.field 31 19 ≠ 0 →
      complete w s = .next { s with errcode := 1, done := true, err := true, latch := none }) := by
  have hrow : ⟨"QR.BEGIN", 0x00000020, 0xFFF8C0FF, fun w => .qrBegin (w.field 13 8) (w.field 18 16)⟩ ∈ opcodeMap :=
    .tail _ (.tail _ (.tail _ (.tail _ (.tail _ (.tail _ (.tail _ (.head _)))))))
  have hopcode : (0x20 : Word).byteAt 0 = w.byteAt 0 := hop.symm
  have hmask : (0xFFF8C0FF : Word) = reservedFrom 19 ||| fieldMask 15 14 := by decide
  have hmatch : w &&& 0xFFF8C0FF = 0x20 ↔ w.field 31 19 = 0 ∧ w.field 15 14 = 0 := by
    rw [hmask, and_or_eq_iff (by decide) (by decide), and_reservedFrom_eq_iff (by decide) (by decide) hopcode,
      Word.field_eq_zero_iff_and_fieldMask (hi := 15)]
    rfl
  refine ⟨fun hlow hhigh => ?_, fun hbit => ?_⟩
  · exact complete_of_decode ((decode_of_row hrow hopcode).trans (if_pos (hmatch.mpr ⟨hhigh, hlow⟩))) s
  · exact complete_of_decode_error (decode_of_reservedBit hrow hopcode (mt hmatch.mp (by tauto))) s

/-- Settles O22: every parameter fits its register, so the registers read back what the tables give; the word's reserved
bits are 15:14 and 31:19. -/
theorem qrBeginSetsTheParameters : Obligations.QrBeginSetsTheParameters := by
  unfold Obligations.QrBeginSetsTheParameters
  refine fun v e s => ⟨fun h1 h40 he => ?_, fun hv => exec_qrBegin_of_invalid_version hv e s,
    fun h1 h40 he => exec_qrBegin_of_invalid_level h1 h40 he s, fun w hop => complete_of_opcode_qrBegin hop s⟩
  have hp := paramsHold_paramsOf h1 h40 he
  have hfield {n value : Nat} {r : BitVec n} (hr : r.toNat = value) (hn : n ≤ 32) : (regField 0 r).toNat = value :=
    (regField_zero_toNat r hn).trans hr
  refine ⟨_, exec_qrBegin_of_legal h1 h40 he s, rfl, hfield hp.version (by decide), hfield hp.eclevel (by decide),
    hfield hp.side (by decide), hfield hp.ndata (by decide), hfield hp.ncw (by decide), ?_,
    hfield hp.rembits (by decide), rfl, fun k => Vector.getElem_replicate _, fun j => Vector.getElem_replicate _, rfl⟩
  rw [← hp.nb, ← hp.ecb, ← hp.nshort, ← hp.dshort]
  exact Params.blocksWord_toNat _

end Sys2Proof.Machine

namespace Sys2Proof.Machine

/-! ### The cells of a square matrix (00_scope.md R12) -/

/-- `m` has `side` rows of `side` cells each. -/
structure Matrix.Square (side : Nat) (m : Matrix) : Prop where
  rows : m.length = side
  columns : ∀ row ∈ m, row.length = side

theorem Matrix.Square.row_length {side r : Nat} {m : Matrix} (h : m.Square side) (hr : r < side) :
    (m.getD r []).length = side := by
  have hr' : r < m.length := h.rows.symm ▸ hr
  rw [List.getD_eq_getElem _ _ hr']
  exact h.columns _ (List.getElem_mem hr')

theorem Matrix.square_blank (side : Nat) : (Matrix.blank side).Square side :=
  ⟨List.length_replicate, fun _ h => List.eq_of_mem_replicate h ▸ List.length_replicate⟩

theorem Matrix.cell_blank {side r c : Nat} (hr : r < side) (hc : c < side) :
    (Matrix.blank side).cell r c = cellUnset := by
  simp [Matrix.blank, Matrix.cell, hr, hc]

theorem mapFrom_eq_mapIdx {α β : Type} (f : Nat → α → β) (i : Nat) (l : List α) :
    mapFrom f i l = l.mapIdx fun j x => f (i + j) x := by
  induction l generalizing i with
  | nil => rfl
  | cons x rest ih => simp [mapFrom, ih, List.mapIdx_cons, Nat.add_assoc, Nat.add_comm 1]

theorem Matrix.overlay_eq_mapIdx (pattern : Nat → Nat → Option Byte) (m : Matrix) :
    m.overlay pattern = m.mapIdx fun r row => row.mapIdx fun c old => (pattern r c).getD old := by
  simp [Matrix.overlay, mapFrom_eq_mapIdx]

theorem Matrix.Square.overlay {side : Nat} {m : Matrix} (h : m.Square side) (pattern : Nat → Nat → Option Byte) :
    (m.overlay pattern).Square side := by
  rw [Matrix.overlay_eq_mapIdx]
  refine ⟨by rw [List.length_mapIdx, h.rows], fun row hrow => ?_⟩
  obtain ⟨r, hr, rfl⟩ := List.mem_mapIdx.mp hrow
  rw [List.length_mapIdx]
  exact h.columns _ (List.getElem_mem hr)

theorem Matrix.Square.cell_overlay {side r c : Nat} {m : Matrix} (h : m.Square side) (hr : r < side) (hc : c < side)
    (pattern : Nat → Nat → Option Byte) : (m.overlay pattern).cell r c = (pattern r c).getD (m.cell r c) := by
  have hr' : r < m.length := h.rows.symm ▸ hr
  have hc' : c < m[r].length := (h.columns _ (List.getElem_mem hr')).symm ▸ hc
  simp [Matrix.overlay_eq_mapIdx, Matrix.cell, hr', hc']

theorem Matrix.Square.put {side : Nat} {m : Matrix} (h : m.Square side) (r c : Nat) (v : Byte) :
    (m.put r c v).Square side := by
  by_cases hr : r < m.length
  · refine ⟨by rw [Matrix.put, List.length_set, h.rows], fun row hrow => ?_⟩
    obtain hm | rfl := List.mem_or_eq_of_mem_set hrow
    · exact h.columns row hm
    · rw [List.length_set, h.row_length (h.rows ▸ hr)]
  · rwa [Matrix.put, List.set_eq_of_length_le (by omega)]

theorem Matrix.Square.cell_put {side r c : Nat} {m : Matrix} (h : m.Square side) (hr : r < side) (hc : c < side)
    (r' c' : Nat) (v : Byte) : (m.put r' c' v).cell r c = if (r, c) = (r', c') then v else m.cell r c := by
  have hrow : r < m.length := h.rows.symm ▸ hr
  have hcol : c < m[r].length := (h.columns _ (List.getElem_mem hrow)).symm ▸ hc
  by_cases er : r = r'
  · subst er
    by_cases ec : c = c'
    · subst ec
      simp [Matrix.put, Matrix.cell, hrow, hcol]
    · simp [Matrix.put, Matrix.cell, hrow, hcol, ec, Ne.symm ec]
  · simp [Matrix.put, Matrix.cell, hrow, er, Ne.symm er]

theorem Matrix.Square.putAll {side : Nat} {m : Matrix} (h : m.Square side) (places : List (Nat × Nat)) (v : Byte) :
    (m.putAll places v).Square side := by
  induction places generalizing m with
  | nil => exact h
  | cons p rest ih => exact ih (h.put p.1 p.2 v)

theorem Matrix.Square.cell_putAll {side r c : Nat} {m : Matrix} (h : m.Square side) (hr : r < side) (hc : c < side)
    (places : List (Nat × Nat)) (v : Byte) :
    (m.putAll places v).cell r c = if (r, c) ∈ places then v else m.cell r c := by
  induction places generalizing m with
  | nil => simp [Matrix.putAll]
  | cons p rest ih =>
    calc (m.putAll (p :: rest) v).cell r c
      _ = ((m.put p.1 p.2 v).putAll rest v).cell r c := rfl
      _ = if (r, c) ∈ p :: rest then v else m.cell r c := by
        rw [ih (h.put p.1 p.2 v), h.cell_put hr hc]
        by_cases hm : (r, c) ∈ rest <;> simp [hm]

theorem sum_map_eq_sum_range {α : Type} (d : α) (f : α → Nat) (l : List α) :
    (l.map f).sum = ∑ i ∈ Finset.range l.length, f (l.getD i d) := by
  rw [Finset.sum_range, ← Fin.sum_univ_fun_getElem]
  simp

theorem countP_eq_sum_range {α : Type} (d : α) (p : α → Bool) (l : List α) :
    l.countP p = ∑ i ∈ Finset.range l.length, if p (l.getD i d) then 1 else 0 := by
  rw [← sum_map_eq_sum_range d fun x => if p x then 1 else 0]
  induction l with
  | nil => rfl
  | cons x rest ih => simp [List.countP_cons, ih, Nat.add_comm]

/-- The places of a matrix of side `side`. -/
def allPlaces (side : Nat) : Finset (Nat × Nat) :=
  Finset.range side ×ˢ Finset.range side

theorem mem_allPlaces {side : Nat} {p : Nat × Nat} : p ∈ allPlaces side ↔ p.1 < side ∧ p.2 < side := by
  simp [allPlaces]

/-- The cells that satisfy `p` are counted place by place. -/
theorem Matrix.Square.countP_flatten {side : Nat} {m : Matrix} (h : m.Square side) (p : Byte → Bool) :
    m.flatten.countP p = ((allPlaces side).filter fun x => p (m.cell x.1 x.2)).card := by
  rw [List.countP_flatten, sum_map_eq_sum_range [], h.rows, Finset.card_filter, allPlaces, Finset.sum_product]
  refine Finset.sum_congr rfl fun r hr => ?_
  rw [countP_eq_sum_range 0, h.row_length (Finset.mem_range.mp hr)]
  rfl

theorem Matrix.Square.unsetCount_eq_card {side : Nat} {m : Matrix} (h : m.Square side) :
    m.unsetCount = ((allPlaces side).filter fun x => m.cell x.1 x.2 = cellUnset).card := by
  have hflat : m.unsetCount = m.flatten.countP (· == cellUnset) := by
    rw [List.countP_flatten]
    rfl
  rw [hflat, h.countP_flatten]
  simp

/-! ### The alignment centres (43_matrix.md R196) -/

theorem sideOf_ge {v : Nat} (h1 : 1 ≤ v) : 21 ≤ sideOf v := by
  unfold sideOf
  omega

/-- The centres of version `v` but the first. -/
def laterCentres (v : Nat) : List Nat :=
  (alignCentres v).tail

/-- The centres of version `v` but the first and the last. -/
def innerCentres (v : Nat) : List Nat :=
  (laterCentres v).dropLast

/-- The first centre is 6. -/
theorem alignCentres_eq_cons : ∀ v ≤ 40, 2 ≤ v → alignCentres v = 6 :: laterCentres v := by decide

/-- The last centre is S − 7. -/
theorem laterCentres_eq_append : ∀ v ≤ 40, 2 ≤ v → laterCentres v = innerCentres v ++ [sideOf v - 7] := by decide

/-- The patterns of two centres do not meet. -/
theorem alignCentres_spaced : ∀ v ≤ 40, (alignCentres v).Pairwise fun a b => a + 4 < b := by decide

theorem laterCentres_spaced {v : Nat} (h40 : v ≤ 40) : (laterCentres v).Pairwise fun a b => a + 4 < b :=
  (alignCentres_spaced v h40).sublist (List.tail_sublist _)

theorem innerCentres_sublist (v : Nat) : (innerCentres v).Sublist (laterCentres v) :=
  List.dropLast_sublist _

theorem laterCentres_ge : ∀ v ≤ 40, ∀ a ∈ laterCentres v, 11 ≤ a := by decide

/-- The inner centres keep clear of the finders and of the version cells. -/
theorem innerCentres_range : ∀ v ≤ 40, ∀ a ∈ innerCentres v, 11 ≤ a ∧ a + 14 ≤ sideOf v := by decide

theorem absDiff_le_iff {x a k : Nat} : absDiff x a ≤ k ↔ a ≤ x + k ∧ x ≤ a + k := by
  unfold absDiff
  omega

/-- The coordinates within distance 2 of a centre. -/
def alignBand (centres : List Nat) : Finset Nat :=
  centres.toFinset.biUnion fun a => Finset.Icc (a - 2) (a + 2)

theorem mem_alignBand {centres : List Nat} {x : Nat} : x ∈ alignBand centres ↔ ∃ a ∈ centres, absDiff x a ≤ 2 := by
  simp [alignBand, absDiff_le_iff]

theorem alignBand_card {centres : List Nat} (hspaced : centres.Pairwise fun a b => a + 4 < b)
    (hlow : ∀ a ∈ centres, 2 ≤ a) : (alignBand centres).card = 5 * centres.length := by
  induction centres with
  | nil => rfl
  | cons a rest ih =>
    obtain ⟨hfirst, hrest⟩ := List.pairwise_cons.mp hspaced
    obtain ⟨ha, hlow'⟩ := List.forall_mem_cons.mp hlow
    have hcons : alignBand (a :: rest) = Finset.Icc (a - 2) (a + 2) ∪ alignBand rest := by simp [alignBand]
    have hdisjoint : Disjoint (Finset.Icc (a - 2) (a + 2)) (alignBand rest) := by
      refine Finset.disjoint_left.mpr fun x hx hx' => ?_
      obtain ⟨b, hb, hbx⟩ := mem_alignBand.mp hx'
      have := hfirst b hb
      have := (absDiff_le_iff.mp hbx).1
      have := (Finset.mem_Icc.mp hx).2
      omega
    rw [hcons, Finset.card_union_of_disjoint hdisjoint, ih hrest hlow', Nat.card_Icc, List.length_cons]
    omega

/-! ### The alignment patterns -/

/-- Among centres further apart than twice the radius, the centre near a coordinate is the only one near it. -/
theorem nearCentre?_eq_some_iff {radius x a : Nat} {centres : List Nat}
    (hspaced : centres.Pairwise fun a b => a + 2 * radius < b) :
    nearCentre? radius centres x = some a ↔ a ∈ centres ∧ absDiff x a ≤ radius := by
  induction centres with
  | nil => simp [nearCentre?]
  | cons b rest ih =>
    obtain ⟨hfirst, hrest⟩ := List.pairwise_cons.mp hspaced
    by_cases hb : absDiff x b ≤ radius
    · have hnear : nearCentre? radius (b :: rest) x = some b := by simp [nearCentre?, hb]
      have hother (ha : a ∈ rest) : ¬ absDiff x a ≤ radius := by
        have := hfirst a ha
        unfold absDiff at *
        omega
      rw [hnear, Option.some.injEq, List.mem_cons]
      constructor
      · rintro rfl
        exact ⟨.inl rfl, hb⟩
      · rintro ⟨rfl | ha, hxa⟩
        · rfl
        · exact absurd hxa (hother ha)
    · have hnear : nearCentre? radius (b :: rest) x = nearCentre? radius rest x := by simp [nearCentre?, hb]
      rw [hnear, ih hrest, List.mem_cons]
      constructor
      · exact fun ⟨ha, hxa⟩ => ⟨.inr ha, hxa⟩
      · rintro ⟨rfl | ha, hxa⟩
        · exact absurd hxa hb
        · exact ⟨ha, hxa⟩

/-- The three pairs of centres that would overlap a finder (43_matrix.md R197). -/
def overFinder (centres : List Nat) (a b : Nat) : Prop :=
  let first := centres.headD 0
  let last := centres.getLastD 0
  (a = first ∧ b = first) ∨ (a = first ∧ b = last) ∨ (a = last ∧ b = first)

theorem alignmentPattern_eq_none_iff {centres : List Nat} {r c : Nat} :
    alignmentPattern centres r c = none ↔
      ∀ a b, nearCentre? 2 centres r = some a → nearCentre? 2 centres c = some b → overFinder centres a b := by
  cases hr : nearCentre? 2 centres r with
  | none => simp [alignmentPattern, hr]
  | some a =>
    cases hc : nearCentre? 2 centres c with
    | none => simp [alignmentPattern, hr, hc]
    | some b =>
      have hpair : alignmentPattern centres r c = none ↔ overFinder centres a b := by
        simp only [alignmentPattern, hr, hc, ite_eq_left_iff, reduceCtorEq, imp_false, not_not, overFinder]
      simp [hpair]

theorem overFinder_alignCentres_iff {v a b : Nat} (h2 : 2 ≤ v) (h40 : v ≤ 40) :
    overFinder (alignCentres v) a b ↔ (a = 6 ∧ b = 6) ∨ (a = 6 ∧ b = sideOf v - 7) ∨ (a = sideOf v - 7 ∧ b = 6) := by
  have hlast : (alignCentres v).getLastD 0 = sideOf v - 7 := by
    rw [alignCentres_eq_cons v h40 h2, laterCentres_eq_append v h40 h2, ← List.cons_append, List.getLastD_concat]
  have hhead : (alignCentres v).headD 0 = 6 := by rw [alignCentres_eq_cons v h40 h2, List.headD_cons]
  simp only [overFinder, hlast, hhead]

/-- An alignment pattern covers the modules in the rows of one centre and the columns of another, but for the pairs of
the first centre with itself and with the last (R197). -/
theorem alignmentPattern_alignCentres_eq_none_iff {v r c : Nat} (h1 : 1 ≤ v) (h40 : v ≤ 40) :
    alignmentPattern (alignCentres v) r c = none ↔
      ¬ ((4 ≤ r ∧ r ≤ 8) ∧ c ∈ alignBand (innerCentres v)) ∧ ¬ (r ∈ alignBand (innerCentres v) ∧ (4 ≤ c ∧ c ≤ 8)) ∧
      ¬ (r ∈ alignBand (laterCentres v) ∧ c ∈ alignBand (laterCentres v)) := by
  have hsome (x a : Nat) := nearCentre?_eq_some_iff (radius := 2) (x := x) (a := a) (alignCentres_spaced v h40)
  simp only [alignmentPattern_eq_none_iff, hsome, mem_alignBand]
  obtain rfl | h2 : v = 1 ∨ 2 ≤ v := by omega
  · simp [alignCentres, alignTableLow, innerCentres, laterCentres]
  have hinner := innerCentres_range v h40
  have hlater {a : Nat} : a ∈ laterCentres v ↔ a ∈ innerCentres v ∨ a = sideOf v - 7 := by
    simp [laterCentres_eq_append v h40 h2]
  have hcentre {a : Nat} : a ∈ alignCentres v ↔ a = 6 ∨ a ∈ laterCentres v := by
    simp [alignCentres_eq_cons v h40 h2]
  have hfirst {x : Nat} : absDiff x 6 ≤ 2 ↔ 4 ≤ x ∧ x ≤ 8 := by
    rw [absDiff_le_iff]
    omega
  have hside : 25 ≤ sideOf v := by
    unfold sideOf
    omega
  have hlater_ge := laterCentres_ge v h40
  simp only [overFinder_alignCentres_iff h2 h40]
  constructor
  · intro h
    refine ⟨fun ⟨hr, b, hb, hcb⟩ => ?_, fun ⟨⟨a, ha, hra⟩, hc⟩ => ?_, fun ⟨⟨a, ha, hra⟩, b, hb, hcb⟩ => ?_⟩
    · have := h 6 b ⟨hcentre.mpr (.inl rfl), hfirst.mpr hr⟩ ⟨hcentre.mpr (.inr (hlater.mpr (.inl hb))), hcb⟩
      have := hinner b hb
      omega
    · have := h a 6 ⟨hcentre.mpr (.inr (hlater.mpr (.inl ha))), hra⟩ ⟨hcentre.mpr (.inl rfl), hfirst.mpr hc⟩
      have := hinner a ha
      omega
    · have := h a b ⟨hcentre.mpr (.inr ha), hra⟩ ⟨hcentre.mpr (.inr hb), hcb⟩
      have := hlater_ge a ha
      have := hlater_ge b hb
      omega
  · rintro ⟨hfirstInner, hinnerFirst, hlaterLater⟩ a b ⟨ha, hra⟩ ⟨hb, hcb⟩
    obtain rfl | ha := hcentre.mp ha <;> obtain rfl | hb := hcentre.mp hb
    · exact .inl ⟨rfl, rfl⟩
    · obtain hb | rfl := hlater.mp hb
      · exact absurd ⟨hfirst.mp hra, b, hb, hcb⟩ hfirstInner
      · exact .inr (.inl ⟨rfl, rfl⟩)
    · obtain ha | rfl := hlater.mp ha
      · exact absurd ⟨⟨a, ha, hra⟩, hfirst.mp hcb⟩ hinnerFirst
      · exact .inr (.inr ⟨rfl, rfl⟩)
    · exact absurd ⟨⟨a, ha, hra⟩, b, hb, hcb⟩ hlaterLater

/-! ### Finders, timing and the information cells (43_matrix.md R193 to R195, R198) -/

/-- A finder with its separator covers an 8×8 square in every corner but the bottom right one (R193, R194). -/
theorem finderPattern_eq_none_iff {s r c : Nat} (hs : 21 ≤ s) (hr : r < s) (hc : c < s) :
    finderPattern s r c = none ↔ ¬ (r ≤ 7 ∧ c ≤ 7) ∧ ¬ (r ≤ 7 ∧ s - 8 ≤ c) ∧ ¬ (s - 8 ≤ r ∧ c ≤ 7) := by
  have hnear {x : Nat} (hx : x < s) : nearCentre? 4 [3, s - 4] x =
      if x ≤ 7 then some 3 else if s - 8 ≤ x then some (s - 4) else none := by
    have hlow : absDiff x 3 ≤ 4 ↔ x ≤ 7 := by rw [absDiff_le_iff]; omega
    have hhigh : absDiff x (s - 4) ≤ 4 ↔ s - 8 ≤ x := by rw [absDiff_le_iff]; omega
    simp only [nearCentre?, List.find?_cons, hlow, hhigh]
    split_ifs <;> simp [*]
  unfold finderPattern
  rw [hnear hr, hnear hc]
  have hcentres : s - 4 ≠ 3 := by omega
  split_ifs <;> simp [*]

theorem timingPattern_eq_none_iff {s r c : Nat} :
    timingPattern s r c = none ↔ ¬ (r = 6 ∧ 8 ≤ c ∧ c + 9 ≤ s) ∧ ¬ (c = 6 ∧ 8 ≤ r ∧ r + 9 ≤ s) := by
  unfold timingPattern
  split_ifs <;> simp_all

/-- Copy A goes down column 8 and back along row 8 of the top left corner, without the timing modules. -/
theorem exists_formatCellA_iff {r c : Nat} :
    (∃ i < 15, (r, c) = formatCellA i) ↔ (r = 8 ∧ c ≤ 8 ∧ c ≠ 6) ∨ (c = 8 ∧ r ≤ 8 ∧ r ≠ 6) := by
  constructor
  · rintro ⟨i, hi, h⟩
    unfold formatCellA at h
    split_ifs at h <;> rw [Prod.mk.injEq] at h <;> omega
  · rintro (⟨rfl, hc, hc6⟩ | ⟨rfl, hr, hr6⟩)
    · refine ⟨if c ≤ 5 then 14 - c else 15 - c, by split_ifs <;> omega, ?_⟩
      unfold formatCellA
      split_ifs <;> rw [Prod.mk.injEq] <;> omega
    · refine ⟨if r ≤ 5 then r else r - 1, by split_ifs <;> omega, ?_⟩
      unfold formatCellA
      split_ifs <;> rw [Prod.mk.injEq] <;> omega

/-- Copy B lies at the right end of row 8 and the lower end of column 8. -/
theorem exists_formatCellB_iff {s r c : Nat} (hs : 21 ≤ s) (hr : r < s) (hc : c < s) :
    (∃ i < 15, (r, c) = formatCellB s i) ↔ (r = 8 ∧ s - 8 ≤ c) ∨ (c = 8 ∧ s - 7 ≤ r) := by
  constructor
  · rintro ⟨i, hi, h⟩
    unfold formatCellB at h
    split_ifs at h <;> rw [Prod.mk.injEq] at h <;> omega
  · rintro (⟨rfl, h⟩ | ⟨rfl, h⟩)
    · exact ⟨s - 1 - c, by omega, by rw [formatCellB, if_pos (by omega), Prod.mk.injEq]; omega⟩
    · exact ⟨r + 15 - s, by omega, by rw [formatCellB, if_neg (by omega), Prod.mk.injEq]; omega⟩

theorem mem_formatCells {s r c : Nat} (hs : 21 ≤ s) (hr : r < s) (hc : c < s) :
    (r, c) ∈ formatCells s ↔
      (r = 8 ∧ (c ≤ 8 ∧ c ≠ 6 ∨ s - 8 ≤ c)) ∨ (c = 8 ∧ (r ≤ 8 ∧ r ≠ 6 ∨ s - 7 ≤ r)) := by
  have hcopies : (r, c) ∈ formatCells s ↔ (∃ i < 15, (r, c) = formatCellA i) ∨ ∃ i < 15, (r, c) = formatCellB s i := by
    simp only [formatCells, List.mem_flatMap, List.mem_range, List.mem_cons, List.not_mem_nil, or_false, ← exists_or,
      ← and_or_left]
  rw [hcopies, exists_formatCellA_iff, exists_formatCellB_iff hs hr hc, or_or_or_comm, ← and_or_left, ← and_or_left]

/-- The version cells are a 6×3 block left of the top right finder and its transpose. -/
theorem mem_versionCells {s r c : Nat} (hs : 11 ≤ s) :
    (r, c) ∈ versionCells s ↔ (r < 6 ∧ s - 11 ≤ c ∧ c < s - 8) ∨ (c < 6 ∧ s - 11 ≤ r ∧ r < s - 8) := by
  simp only [versionCells, versionCellTR, versionCellBL, List.mem_flatMap, List.mem_range, List.mem_cons,
    List.not_mem_nil, or_false, Prod.mk.injEq]
  constructor
  · rintro ⟨i, hi, h⟩
    omega
  · rintro (h | h)
    · exact ⟨3 * r + (c - (s - 11)), by omega, .inl (by omega)⟩
    · exact ⟨3 * c + (r - (s - 11)), by omega, .inr (by omega)⟩

theorem mem_infoCells {v s r c : Nat} (hs : 21 ≤ s) (hr : r < s) (hc : c < s) :
    (r, c) ∈ infoCells v s ↔
      (r = 8 ∧ (c ≤ 8 ∧ c ≠ 6 ∨ s - 8 ≤ c)) ∨ (c = 8 ∧ (r ≤ 8 ∧ r ≠ 6 ∨ s - 7 ≤ r)) ∨
      (7 ≤ v ∧ (r < 6 ∧ s - 11 ≤ c ∧ c < s - 8 ∨ c < 6 ∧ s - 11 ≤ r ∧ r < s - 8)) := by
  rw [infoCells, List.mem_append, mem_formatCells hs hr hc, or_assoc]
  by_cases h7 : 7 ≤ v
  · rw [if_pos h7, mem_versionCells (by omega), and_iff_right h7]
  · rw [if_neg h7]
    simp only [List.not_mem_nil, h7, false_and]

/-! ### The matrix of the function patterns (43_matrix.md R190) -/

/-- What the finders, the timing lines and the alignment patterns put at a module: a later step writes over an earlier
one. -/
def drawnPattern (v s r c : Nat) : Option Byte :=
  ((alignmentPattern (alignCentres v) r c).or (timingPattern s r c)).or (finderPattern s r c)

theorem drawnPattern_eq_none_iff {v s r c : Nat} :
    drawnPattern v s r c = none ↔
      alignmentPattern (alignCentres v) r c = none ∧ timingPattern s r c = none ∧ finderPattern s r c = none := by
  simp [drawnPattern, and_assoc]

/-- The matrix after PLACE_FINDERS, PLACE_TIMING and PLACE_ALIGNMENT (R190). -/
def drawnMatrix (v s : Nat) : Matrix :=
  (((Matrix.blank s).overlay (finderPattern s)).overlay (timingPattern s)).overlay (alignmentPattern (alignCentres v))

theorem functionMatrix_eq (v s : Nat) : functionMatrix v s = reserveInfo v s (drawnMatrix v s) := rfl

theorem square_drawnMatrix (v s : Nat) : (drawnMatrix v s).Square s :=
  (((Matrix.square_blank s).overlay _).overlay _).overlay _

theorem cell_drawnMatrix {v s r c : Nat} (hr : r < s) (hc : c < s) :
    (drawnMatrix v s).cell r c = (drawnPattern v s r c).getD cellUnset := by
  have hfinder := (Matrix.square_blank s).overlay (finderPattern s)
  rw [drawnMatrix, (hfinder.overlay (timingPattern s)).cell_overlay hr hc, hfinder.cell_overlay hr hc,
    (Matrix.square_blank s).cell_overlay hr hc, Matrix.cell_blank hr hc]
  simp only [drawnPattern, Option.getD_or]

theorem square_reserveInfo {s : Nat} {m : Matrix} (h : m.Square s) (v : Nat) : (reserveInfo v s m).Square s := by
  have hdark := (h.putAll (formatCells s) cellReserved).put (s - 8) 8 (funcCell true)
  unfold reserveInfo
  split
  · exact hdark.putAll _ _
  · exact hdark

/-- RESERVE_INFO writes the information cells and the dark module, which is none of them (R198). -/
theorem cell_reserveInfo {s r c : Nat} {m : Matrix} (h : m.Square s) (hs : 21 ≤ s) (hr : r < s) (hc : c < s)
    (v : Nat) :
    (reserveInfo v s m).cell r c =
      if (r, c) ∈ infoCells v s then cellReserved else if (r, c) = (s - 8, 8) then funcCell true else m.cell r c := by
  have hformat := h.putAll (formatCells s) cellReserved
  have hdark : (s - 8, 8) ∉ formatCells s := by
    rw [mem_formatCells hs (by omega) (by omega)]
    omega
  have hbase : ((m.putAll (formatCells s) cellReserved).put (s - 8) 8 (funcCell true)).cell r c =
      if (r, c) ∈ formatCells s then cellReserved else if (r, c) = (s - 8, 8) then funcCell true else m.cell r c := by
    rw [hformat.cell_put hr hc, h.cell_putAll hr hc]
    by_cases hp : (r, c) = (s - 8, 8)
    · rw [if_pos hp, if_neg (hp ▸ hdark), if_pos hp]
    · rw [if_neg hp, if_neg hp]
  unfold reserveInfo infoCells
  by_cases h7 : 7 ≤ v
  · simp only [if_pos h7, (hformat.put (s - 8) 8 (funcCell true)).cell_putAll hr hc, hbase, List.mem_append]
    by_cases hf : (r, c) ∈ formatCells s <;> simp [hf]
  · simp only [if_neg h7, hbase, List.append_nil]

theorem square_functionMatrix (v s : Nat) : (functionMatrix v s).Square s :=
  square_reserveInfo (square_drawnMatrix v s) v

/-- A module of the function matrix: an information cell, the dark module, a drawn pattern, or UNSET. -/
theorem cell_functionMatrix {v s r c : Nat} (hs : 21 ≤ s) (hr : r < s) (hc : c < s) :
    (functionMatrix v s).cell r c =
      if (r, c) ∈ infoCells v s then cellReserved
      else if (r, c) = (s - 8, 8) then funcCell true
      else (drawnPattern v s r c).getD cellUnset := by
  rw [functionMatrix_eq, cell_reserveInfo (square_drawnMatrix v s) hs hr hc, cell_drawnMatrix hr hc]

theorem finderPattern_isFunc {s r c : Nat} {v : Byte} (h : finderPattern s r c = some v) :
    ∃ dark, v = funcCell dark := by
  unfold finderPattern at h
  split at h
  · cases h
  · split at h
    · cases h
    · split at h
      · exact ⟨_, (Option.some.inj h).symm⟩
      · cases h

theorem timingPattern_isFunc {s r c : Nat} {v : Byte} (h : timingPattern s r c = some v) :
    ∃ dark, v = funcCell dark := by
  unfold timingPattern at h
  split at h
  · exact ⟨_, (Option.some.inj h).symm⟩
  · split at h
    · exact ⟨_, (Option.some.inj h).symm⟩
    · cases h

theorem alignmentPattern_isFunc {centres : List Nat} {r c : Nat} {v : Byte}
    (h : alignmentPattern centres r c = some v) : ∃ dark, v = funcCell dark := by
  unfold alignmentPattern at h
  split at h
  · cases h
  · split at h
    · cases h
    · simp only at h
      split at h
      · cases h
      · exact ⟨_, (Option.some.inj h).symm⟩

/-- Every drawn module is FUNC_LIGHT or FUNC_DARK. -/
theorem drawnPattern_isFunc {v s r c : Nat} {cell : Byte} (h : drawnPattern v s r c = some cell) :
    ∃ dark, cell = funcCell dark := by
  unfold drawnPattern at h
  rw [Option.or_eq_some_iff, Option.or_eq_some_iff] at h
  obtain (h | ⟨-, h⟩) | ⟨-, h⟩ := h
  · exact alignmentPattern_isFunc h
  · exact timingPattern_isFunc h
  · exact finderPattern_isFunc h

/-- The three kinds of module the function patterns leave (43_matrix.md R203). -/
theorem cell_functionMatrix_cases {v s r c : Nat} (hs : 21 ≤ s) (hr : r < s) (hc : c < s) :
    ((r, c) ∈ infoCells v s ∧ (functionMatrix v s).cell r c = cellReserved) ∨
    ((r, c) ∉ infoCells v s ∧ ((r, c) = (s - 8, 8) ∨ drawnPattern v s r c ≠ none) ∧
      ∃ dark, (functionMatrix v s).cell r c = funcCell dark) ∨
    ((r, c) ∉ infoCells v s ∧ (r, c) ≠ (s - 8, 8) ∧ drawnPattern v s r c = none ∧
      (functionMatrix v s).cell r c = cellUnset) := by
  rw [cell_functionMatrix hs hr hc]
  by_cases hinfo : (r, c) ∈ infoCells v s
  · exact .inl ⟨hinfo, if_pos hinfo⟩
  · rw [if_neg hinfo]
    by_cases hdark : (r, c) = (s - 8, 8)
    · exact .inr (.inl ⟨hinfo, .inl hdark, true, if_pos hdark⟩)
    · rw [if_neg hdark]
      cases hp : drawnPattern v s r c with
      | none => exact .inr (.inr ⟨hinfo, hdark, rfl, rfl⟩)
      | some cell => exact .inr (.inl ⟨hinfo, .inr (by simp), drawnPattern_isFunc hp⟩)

theorem funcCell_ne_cellUnset (dark : Bool) : funcCell dark ≠ cellUnset := by cases dark <;> decide

theorem funcCell_ne_cellReserved (dark : Bool) : funcCell dark ≠ cellReserved := by cases dark <;> decide

theorem cell_functionMatrix_eq_reserved_iff {v s r c : Nat} (hs : 21 ≤ s) (hr : r < s) (hc : c < s) :
    (functionMatrix v s).cell r c = cellReserved ↔ (r, c) ∈ infoCells v s := by
  obtain ⟨hinfo, h⟩ | ⟨hinfo, -, dark, h⟩ | ⟨hinfo, -, -, h⟩ := cell_functionMatrix_cases (v := v) hs hr hc
  · exact iff_of_true h hinfo
  · exact iff_of_false (h ▸ funcCell_ne_cellReserved dark) hinfo
  · exact iff_of_false (h ▸ by decide) hinfo

theorem cell_functionMatrix_eq_unset_iff {v s r c : Nat} (hs : 21 ≤ s) (hr : r < s) (hc : c < s) :
    (functionMatrix v s).cell r c = cellUnset ↔
      (r, c) ∉ infoCells v s ∧ (r, c) ≠ (s - 8, 8) ∧ drawnPattern v s r c = none := by
  obtain ⟨hinfo, h⟩ | ⟨-, hplace, dark, h⟩ | ⟨hinfo, hdark, hdrawn, h⟩ := cell_functionMatrix_cases (v := v) hs hr hc
  · exact iff_of_false (h ▸ by decide) fun hfree => hfree.1 hinfo
  · exact iff_of_false (h ▸ funcCell_ne_cellUnset dark) fun hfree => hplace.elim hfree.2.1 fun hne => hne hfree.2.2
  · exact iff_of_true h ⟨hinfo, hdark, hdrawn⟩

/-! ### The reserved modules as rectangles (43_matrix.md R199) -/

/-- The lines of the version cells: six from version 7 on, none below. -/
def versionLines (v : Nat) : Finset Nat :=
  if 7 ≤ v then Finset.range 6 else ∅

/-- Rectangles of rows and columns that the reserved modules of version `v` fill, no module twice: the three finder
corners with their format cells and the dark module, the timing lines between them, the alignment patterns across a
timing line without its modules, the other alignment patterns, and the version cells. -/
def reservedRects (v s : Nat) : List (Finset Nat × Finset Nat) :=
  let low := Finset.range 9
  let middle := Finset.Ico 9 (s - 8)
  let high := Finset.Ico (s - 8) s
  let beside := Finset.Icc 4 8 \ {6}
  let inner := alignBand (innerCentres v)
  let later := alignBand (laterCentres v)
  let version := Finset.Ico (s - 11) (s - 8)
  [ (low, low), (low, high), (high, low), ({6}, middle), (middle, {6}), (beside, inner), (inner, beside),
    (later, later), (versionLines v, version), (version, versionLines v) ]

/-- The modules in some rectangle of a list. -/
def covered (rects : List (Finset Nat × Finset Nat)) : Finset (Nat × Nat) :=
  rects.foldr (fun q rest => q.1 ×ˢ q.2 ∪ rest) ∅

theorem mem_covered {rects : List (Finset Nat × Finset Nat)} {r c : Nat} :
    (r, c) ∈ covered rects ↔ ∃ q ∈ rects, r ∈ q.1 ∧ c ∈ q.2 := by
  induction rects with
  | nil => simp [covered]
  | cons q rest ih =>
    have hcons : covered (q :: rest) = q.1 ×ˢ q.2 ∪ covered rest := rfl
    rw [hcons, Finset.mem_union, Finset.mem_product, ih, List.exists_mem_cons_iff]

/-- Rectangles that do not meet cover as many modules as their areas add up to. -/
theorem covered_card {rects : List (Finset Nat × Finset Nat)}
    (hdisjoint : rects.Pairwise fun q q' => ∀ r c, ¬ ((r ∈ q.1 ∧ c ∈ q.2) ∧ r ∈ q'.1 ∧ c ∈ q'.2)) :
    (covered rects).card = (rects.map fun q => q.1.card * q.2.card).sum := by
  induction rects with
  | nil => rfl
  | cons q rest ih =>
    obtain ⟨hfirst, hrest⟩ := List.pairwise_cons.mp hdisjoint
    have hcons : covered (q :: rest) = q.1 ×ˢ q.2 ∪ covered rest := rfl
    have hmeet : Disjoint (q.1 ×ˢ q.2) (covered rest) := by
      refine Finset.disjoint_left.mpr fun p hp hp' => ?_
      obtain ⟨q', hq', hmem⟩ := mem_covered.mp hp'
      exact hfirst q' hq' p.1 p.2 ⟨Finset.mem_product.mp hp, hmem⟩
    rw [hcons, Finset.card_union_of_disjoint hmeet, ih hrest, Finset.card_product, List.map_cons, List.sum_cons]

theorem mem_versionLines {v x : Nat} : x ∈ versionLines v ↔ 7 ≤ v ∧ x < 6 := by
  unfold versionLines
  split <;> simp [*]

theorem range_of_mem_inner {v x : Nat} (h40 : v ≤ 40) (hx : x ∈ alignBand (innerCentres v)) :
    9 ≤ x ∧ x + 12 ≤ sideOf v := by
  obtain ⟨a, ha, hxa⟩ := mem_alignBand.mp hx
  have := innerCentres_range v h40 a ha
  have := absDiff_le_iff.mp hxa
  omega

/-- The lines near a later centre are those near an inner one and, from version 2 on, the five near S − 7. -/
theorem mem_later_iff {v x : Nat} (h1 : 1 ≤ v) (h40 : v ≤ 40) :
    x ∈ alignBand (laterCentres v) ↔
      x ∈ alignBand (innerCentres v) ∨ 2 ≤ v ∧ sideOf v - 9 ≤ x ∧ x ≤ sideOf v - 5 := by
  obtain rfl | h2 : v = 1 ∨ 2 ≤ v := by omega
  · simp [mem_alignBand, laterCentres, innerCentres, alignCentres, alignTableLow]
  · have hside : 25 ≤ sideOf v := by unfold sideOf; omega
    have hlast : absDiff x (sideOf v - 7) ≤ 2 ↔ sideOf v - 9 ≤ x ∧ x ≤ sideOf v - 5 := by
      rw [absDiff_le_iff]
      omega
    rw [mem_alignBand, mem_alignBand, laterCentres_eq_append v h40 h2]
    simp [or_and_right, exists_or, hlast, h2]

/-- The rectangles cover what the function patterns reserve. -/
theorem mem_covered_reservedRects {v r c : Nat} (h1 : 1 ≤ v) (h40 : v ≤ 40) (hr : r < sideOf v) (hc : c < sideOf v) :
    (r, c) ∈ covered (reservedRects v (sideOf v)) ↔ (functionMatrix v (sideOf v)).cell r c ≠ cellUnset := by
  have hs := sideOf_ge h1
  have hr' := range_of_mem_inner (x := r) h40
  have hc' := range_of_mem_inner (x := c) h40
  have h2 : 2 ≤ v → 25 ≤ sideOf v := by unfold sideOf; omega
  have h7 : 7 ≤ v → 45 ≤ sideOf v := by unfold sideOf; omega
  rw [Ne, cell_functionMatrix_eq_unset_iff hs hr hc, drawnPattern_eq_none_iff, mem_infoCells hs hr hc,
    alignmentPattern_alignCentres_eq_none_iff h1 h40, timingPattern_eq_none_iff, finderPattern_eq_none_iff hs hr hc,
    mem_covered]
  simp only [reservedRects, List.mem_cons, List.not_mem_nil, or_false, exists_eq_or_imp, exists_eq_left,
    Finset.mem_range, Finset.mem_Ico, Finset.mem_singleton, Finset.mem_sdiff, Finset.mem_Icc,
    mem_versionLines, mem_later_iff h1 h40]
  generalize sideOf v = s at *
  obtain hband | hband | hband : r < 9 ∨ (9 ≤ r ∧ r < s - 8) ∨ s - 8 ≤ r := by omega
  all_goals grind

/-- No module lies in two of the rectangles. -/
theorem reservedRects_disjoint {v : Nat} (h1 : 1 ≤ v) (h40 : v ≤ 40) :
    (reservedRects v (sideOf v)).Pairwise fun q q' => ∀ r c, ¬ ((r ∈ q.1 ∧ c ∈ q.2) ∧ r ∈ q'.1 ∧ c ∈ q'.2) := by
  have hs := sideOf_ge h1
  have hinner (x : Nat) := range_of_mem_inner (x := x) h40
  have h2 : 2 ≤ v → 25 ≤ sideOf v := by unfold sideOf; omega
  have h7 : 7 ≤ v → 45 ≤ sideOf v := by unfold sideOf; omega
  simp only [reservedRects, List.pairwise_cons, List.mem_cons, List.not_mem_nil, or_false, forall_eq_or_imp, forall_eq,
    Finset.mem_range, Finset.mem_Ico, Finset.mem_singleton, Finset.mem_sdiff, Finset.mem_Icc,
    mem_versionLines, mem_later_iff h1 h40]
  generalize sideOf v = s at *
  and_intros <;> grind

theorem laterBand_card {v : Nat} (h40 : v ≤ 40) : (alignBand (laterCentres v)).card = 5 * (laterCentres v).length :=
  alignBand_card (laterCentres_spaced h40) fun a ha => (laterCentres_ge v h40 a ha).trans' (by decide)

theorem innerBand_card {v : Nat} (h40 : v ≤ 40) : (alignBand (innerCentres v)).card = 5 * (innerCentres v).length :=
  alignBand_card ((laterCentres_spaced h40).sublist (innerCentres_sublist v))
    fun a ha => (innerCentres_range v h40 a ha).1.trans' (by decide)

/-- The rectangles lie in the symbol. -/
theorem covered_reservedRects_subset {v : Nat} (h1 : 1 ≤ v) (h40 : v ≤ 40) :
    covered (reservedRects v (sideOf v)) ⊆ allPlaces (sideOf v) := by
  have hs := sideOf_ge h1
  have hinner (x : Nat) := range_of_mem_inner (x := x) h40
  have hlines : ∀ q ∈ reservedRects v (sideOf v), (∀ x ∈ q.1, x < sideOf v) ∧ ∀ x ∈ q.2, x < sideOf v := by
    simp only [reservedRects, List.forall_mem_cons, List.not_mem_nil, Finset.mem_range, Finset.mem_Ico,
      Finset.mem_singleton, Finset.mem_sdiff, Finset.mem_Icc, mem_versionLines, mem_later_iff h1 h40]
    and_intros <;> grind
  rintro ⟨r, c⟩ hp
  obtain ⟨q, hq, hrow, hcol⟩ := mem_covered.mp hp
  exact mem_allPlaces.mpr ⟨(hlines q hq).1 r hrow, (hlines q hq).2 c hcol⟩

theorem covered_reservedRects_card {v : Nat} (h1 : 1 ≤ v) (h40 : v ≤ 40) :
    (covered (reservedRects v (sideOf v))).card =
      225 + 2 * (sideOf v - 17) + 40 * (innerCentres v).length +
        25 * ((laterCentres v).length * (laterCentres v).length) + if 7 ≤ v then 36 else 0 := by
  have hs := sideOf_ge h1
  have hhigh : sideOf v - (sideOf v - 8) = 8 := by omega
  have hversion : sideOf v - 8 - (sideOf v - 11) = 3 := by omega
  have hmiddle : sideOf v - 8 - 9 = sideOf v - 17 := by omega
  have hbeside : (Finset.Icc 4 8 \ {6} : Finset Nat).card = 4 := by decide
  have hlines : (versionLines v).card = if 7 ≤ v then 6 else 0 := by
    unfold versionLines
    split <;> rfl
  rw [covered_card (reservedRects_disjoint h1 h40)]
  simp only [reservedRects, List.map_cons, List.map_nil, List.sum_cons, List.sum_nil, Finset.card_range, Nat.card_Ico,
    Finset.card_singleton, innerBand_card h40, laterBand_card h40, hhigh, hversion, hmiddle, hbeside, hlines]
  split <;> ring

/-- The areas of the rectangles leave RAWMOD(V) of the symbol, version by version (42_assemble.md R172). -/
theorem rawModules_add_covered : ∀ v ≤ 40, 1 ≤ v →
    rawModules v + (225 + 2 * (sideOf v - 17) + 40 * (innerCentres v).length +
      25 * ((laterCentres v).length * (laterCentres v).length) + if 7 ≤ v then 36 else 0) =
      sideOf v * sideOf v := by decide

/-- The UNSET modules are those no rectangle covers. -/
theorem unsetCount_functionMatrix {v : Nat} (h1 : 1 ≤ v) (h40 : v ≤ 40) :
    (functionMatrix v (sideOf v)).unsetCount = rawModules v := by
  have hreserved : (allPlaces (sideOf v)).filter (fun p => ¬ (functionMatrix v (sideOf v)).cell p.1 p.2 = cellUnset) =
      covered (reservedRects v (sideOf v)) := by
    ext ⟨r, c⟩
    rw [Finset.mem_filter, mem_allPlaces]
    constructor
    · exact fun ⟨⟨hr, hc⟩, h⟩ => (mem_covered_reservedRects h1 h40 hr hc).mpr h
    · intro h
      obtain ⟨hr, hc⟩ := mem_allPlaces.mp (covered_reservedRects_subset h1 h40 h)
      exact ⟨⟨hr, hc⟩, (mem_covered_reservedRects h1 h40 hr hc).mp h⟩
  have hsplit := Finset.card_filter_add_card_filter_not (s := allPlaces (sideOf v))
    fun p => (functionMatrix v (sideOf v)).cell p.1 p.2 = cellUnset
  rw [hreserved, ← (square_functionMatrix v (sideOf v)).unsetCount_eq_card, covered_reservedRects_card h1 h40,
    allPlaces, Finset.card_product, Finset.card_range] at hsplit
  have := rawModules_add_covered v h40 h1
  omega

theorem remOf_mem : ∀ v ≤ 40, 1 ≤ v → remOf v ∈ [0, 3, 4, 7] := by decide

theorem alignCentres_length : ∀ v ≤ 40, 2 ≤ v → (alignCentres v).length = v / 7 + 2 := by decide

theorem rawModules_add_reserved : ∀ v ≤ 40, 1 ≤ v →
    rawModules v + (192 + 2 * (sideOf v - 16) +
      (if 2 ≤ v then
        25 * ((alignCentres v).length * (alignCentres v).length - 3) - 10 * ((alignCentres v).length - 2) else 0) + 31 +
      (if 7 ≤ v then 36 else 0)) = sideOf v * sideOf v := by decide

theorem rawModules_eq (v : Nat) : rawModules v = 8 * ncwOf v + remOf v :=
  (Nat.div_add_mod _ _).symm

/-- Settles O30: the reserved modules are rectangles that do not meet, whose areas add up to S² − RAWMOD(V). -/
theorem moduleCountEqualsTheClosedForm : Obligations.ModuleCountEqualsTheClosedForm := by
  unfold Obligations.ModuleCountEqualsTheClosedForm
  rintro v s a h1 h40 rfl rfl
  exact ⟨unsetCount_functionMatrix h1 h40, rawModules_eq v, remOf_mem v h40 h1, alignCentres_length v h40,
    rawModules_add_reserved v h40 h1⟩

/-! ### The zig-zag sequencer (43_matrix.md R200) -/

/-- From a right column that is even and above 6, or odd and below it, the column pairs take in every column but 6. -/
theorem exists_pairColumns {fuel right c : Nat} (hfuel : right ≤ fuel)
    (hright : right % 2 = 0 ∧ 6 ≤ right ∨ right % 2 = 1 ∧ right ≤ 5) (hc : c ≤ right) (hc6 : c ≠ 6) :
    ∃ x ∈ pairColumns fuel right, c = x ∨ c = x - 1 := by
  induction fuel generalizing right with
  | zero => omega
  | succ fuel ih =>
    obtain ⟨x, hx, hx1⟩ : ∃ x, x = (if right = 6 then 5 else right) ∧ 1 ≤ x := ⟨_, rfl, by split <;> omega⟩
    have hcons : pairColumns (fuel + 1) right = x :: pairColumns fuel (x - 2) := by
      rw [pairColumns, if_neg (by omega), hx]
    rw [hcons, List.exists_mem_cons_iff]
    by_cases hhere : c = x ∨ c = x - 1
    · exact .inl hhere
    · right
      split at hx <;> exact ih (by omega) (by omega) (by omega)

theorem mem_pairModules {side right r c : Nat} (hr : r < side) (hc : c = right ∨ c = right - 1) :
    (r, c) ∈ pairModules side right := by
  simp only [pairModules, List.mem_flatMap, List.mem_range, List.mem_cons, Prod.mk.injEq, List.not_mem_nil, or_false]
  by_cases hup : (right + 1) &&& 2 = 0
  · exact ⟨side - 1 - r, by omega, by rw [if_pos hup]; omega⟩
  · exact ⟨r, hr, by rw [if_neg hup]; omega⟩

/-- The sequencer visits every module outside column 6. -/
theorem mem_zigzag {v r c : Nat} (hr : r < sideOf v) (hc : c < sideOf v) (hc6 : c ≠ 6) :
    (r, c) ∈ zigzag (sideOf v) := by
  have hright : (sideOf v - 1) % 2 = 0 ∧ 6 ≤ sideOf v - 1 := by
    unfold sideOf
    omega
  obtain ⟨x, hx, hcx⟩ := exists_pairColumns (fuel := sideOf v) (by omega) (.inl hright) (Nat.le_sub_one_of_lt hc) hc6
  exact List.mem_flatMap.mpr ⟨x, hx, mem_pairModules hr hcx⟩

/-! ### The placed data (43_matrix.md R201, R203) -/

theorem dataCell_ne_cellUnset (dark : Bool) : dataCell dark ≠ cellUnset := by cases dark <;> decide

theorem square_placeData {side : Nat} {m : Matrix} (h : m.Square side) (places : List (Nat × Nat))
    (bits : List Bool) : (placeData places bits m).Square side := by
  induction places generalizing bits m with
  | nil => exact h
  | cons p rest ih =>
    rw [placeData]
    split
    · exact ih (h.put _ _ _) _
    · exact ih h _

/-- A module that is not UNSET keeps its code. -/
theorem cell_placeData_of_ne_unset {side r c : Nat} {m : Matrix} (h : m.Square side) (hr : r < side) (hc : c < side)
    (hset : m.cell r c ≠ cellUnset) (places : List (Nat × Nat)) (bits : List Bool) :
    (placeData places bits m).cell r c = m.cell r c := by
  induction places generalizing bits m with
  | nil => rfl
  | cons p rest ih =>
    rw [placeData]
    split
    · next hp =>
      have hne : (r, c) ≠ p := by
        rintro rfl
        exact hset hp
      have hcell : (m.put p.1 p.2 (dataCell (bits.headD false))).cell r c = m.cell r c := by
        rw [h.cell_put hr hc, if_neg hne]
      rw [ih (h.put _ _ _) (hcell ▸ hset), hcell]
    · exact ih h hset _

/-- An UNSET module that is visited takes a data code. -/
theorem cell_placeData_of_unset {side r c : Nat} {m : Matrix} (h : m.Square side) (hr : r < side)
    (hc : c < side) (hunset : m.cell r c = cellUnset) {places : List (Nat × Nat)} (hvisit : (r, c) ∈ places)
    (bits : List Bool) : ∃ dark, (placeData places bits m).cell r c = dataCell dark := by
  induction places generalizing bits m with
  | nil => cases hvisit
  | cons p rest ih =>
    rw [placeData]
    by_cases hp : (r, c) = p
    · subst hp
      have hcell : (m.put r c (dataCell (bits.headD false))).cell r c = dataCell (bits.headD false) := by
        rw [h.cell_put hr hc, if_pos rfl]
      rw [if_pos hunset]
      have hset : (m.put r c (dataCell (bits.headD false))).cell r c ≠ cellUnset := by
        rw [hcell]
        exact dataCell_ne_cellUnset _
      exact ⟨_, (cell_placeData_of_ne_unset (h.put _ _ _) hr hc hset _ _).trans hcell⟩
    · have hrest : (r, c) ∈ rest := (List.mem_cons.mp hvisit).resolve_left hp
      split
      · exact ih (h.put _ _ _) (by rw [h.cell_put hr hc, if_neg hp, hunset]) hrest _
      · exact ih h hunset hrest _

/-- Every module of column 6 is reserved: the finders and the timing line fill it. -/
theorem column_ne_six_of_unset {v s r c : Nat} (hs : 21 ≤ s) (hr : r < s) (hc : c < s)
    (h : (functionMatrix v s).cell r c = cellUnset) : c ≠ 6 := by
  obtain ⟨-, -, hdrawn⟩ := (cell_functionMatrix_eq_unset_iff hs hr hc).mp h
  obtain ⟨-, htiming, hfinder⟩ := drawnPattern_eq_none_iff.mp hdrawn
  rw [timingPattern_eq_none_iff] at htiming
  rw [finderPattern_eq_none_iff hs hr hc] at hfinder
  omega

theorem cell_buildMatrix_of_ne_unset {v s r c : Nat} (hr : r < s) (hc : c < s)
    (h : (functionMatrix v s).cell r c ≠ cellUnset) (cw : List Byte) :
    (buildMatrix v s cw).cell r c = (functionMatrix v s).cell r c :=
  cell_placeData_of_ne_unset (square_functionMatrix v s) hr hc h _ _

theorem cell_buildMatrix_of_unset {v r c : Nat} (h1 : 1 ≤ v) (hr : r < sideOf v) (hc : c < sideOf v)
    (h : (functionMatrix v (sideOf v)).cell r c = cellUnset) (cw : List Byte) :
    ∃ dark, (buildMatrix v (sideOf v) cw).cell r c = dataCell dark :=
  cell_placeData_of_unset (square_functionMatrix v (sideOf v)) hr hc h
    (mem_zigzag hr hc (column_ne_six_of_unset (sideOf_ge h1) hr hc h)) _

theorem dataCell_cases {code : Byte} :
    (∃ dark, code = dataCell dark) ↔ code = dataCell false ∨ code = dataCell true := by
  simp

theorem dataCell_ne_cellReserved (dark : Bool) : dataCell dark ≠ cellReserved := by cases dark <;> decide

theorem dataCell_ne_funcCell (dark dark' : Bool) : dataCell dark ≠ funcCell dark' := by
  cases dark <;> cases dark' <;> decide

/-- The data modules of a built matrix are the modules the function patterns leave UNSET. -/
theorem cell_buildMatrix_isData_iff {v r c : Nat} (h1 : 1 ≤ v) (hr : r < sideOf v) (hc : c < sideOf v)
    (cw : List Byte) :
    (∃ dark, (buildMatrix v (sideOf v) cw).cell r c = dataCell dark) ↔
      (functionMatrix v (sideOf v)).cell r c = cellUnset := by
  refine ⟨fun ⟨dark, h⟩ => ?_, fun h => cell_buildMatrix_of_unset h1 hr hc h cw⟩
  by_contra hset
  rw [cell_buildMatrix_of_ne_unset hr hc hset] at h
  obtain ⟨-, hcell⟩ | ⟨-, -, dark', hcell⟩ | ⟨-, -, -, hcell⟩ := cell_functionMatrix_cases (v := v) (sideOf_ge h1) hr hc
  · exact dataCell_ne_cellReserved dark (h.symm.trans hcell)
  · exact dataCell_ne_funcCell dark dark' (h.symm.trans hcell)
  · exact hset hcell

theorem cell_functionMatrix_code {v s r c : Nat} (hs : 21 ≤ s) (hr : r < s) (hc : c < s) :
    (functionMatrix v s).cell r c = cellUnset ∨ (functionMatrix v s).cell r c = cellReserved ∨
      (functionMatrix v s).cell r c = funcCell false ∨ (functionMatrix v s).cell r c = funcCell true := by
  obtain ⟨-, h⟩ | ⟨-, -, dark, h⟩ | ⟨-, -, -, h⟩ := cell_functionMatrix_cases (v := v) hs hr hc
  · exact .inr (.inl h)
  · cases dark with
    | false => exact .inr (.inr (.inl h))
    | true => exact .inr (.inr (.inr h))
  · exact .inl h

theorem square_buildMatrix (v s : Nat) (cw : List Byte) : (buildMatrix v s cw).Square s :=
  square_placeData (square_functionMatrix v s) _ _

/-- Settles O33: the sequencer visits every module the function patterns leave UNSET, and no other module changes. -/
theorem builtMatrixIsComplete : Obligations.BuiltMatrixIsComplete := by
  unfold Obligations.BuiltMatrixIsComplete
  refine fun v cw h1 h40 => ⟨?_, ?_⟩
  · rw [(square_buildMatrix v _ cw).countP_flatten, ← unsetCount_functionMatrix h1 h40,
      (square_functionMatrix v _).unsetCount_eq_card]
    refine congrArg Finset.card (Finset.filter_congr fun p hp => ?_)
    obtain ⟨hr, hc⟩ := mem_allPlaces.mp hp
    rw [decide_eq_true_iff, ← dataCell_cases, cell_buildMatrix_isData_iff h1 hr hc]
  · rintro r c _ _ hr hc rfl rfl
    have hs := sideOf_ge h1
    have hreserved := cell_functionMatrix_eq_reserved_iff (v := v) hs hr hc
    by_cases hunset : (functionMatrix v (sideOf v)).cell r c = cellUnset
    · obtain ⟨dark, hdata⟩ := cell_buildMatrix_of_unset h1 hr hc hunset cw
      have hinfo : (r, c) ∉ infoCells v (sideOf v) := ((cell_functionMatrix_eq_unset_iff hs hr hc).mp hunset).1
      exact ⟨hdata ▸ dataCell_ne_cellUnset dark, fun hset => absurd hunset hset,
        fun _ => dataCell_cases.mp ⟨dark, hdata⟩, .inl hunset,
        iff_of_false (hdata ▸ dataCell_ne_cellReserved dark) hinfo⟩
    · rw [cell_buildMatrix_of_ne_unset hr hc hunset]
      exact ⟨hunset, fun _ => rfl, fun h => absurd h hunset, cell_functionMatrix_code hs hr hc, hreserved⟩

/-! ### The capacity check of QR.BUILD (43_matrix.md R202, 60_exceptions.md R285) -/

theorem capacityMatches_iff {avail ncw : Nat} :
    capacityMatches avail ncw = true ↔ 8 * ncw ≤ avail ∧ avail ≤ 8 * ncw + 7 := by
  simp [capacityMatches]

theorem exec_qrBuild_of_mismatch {s : State} (hp : s.phase = .assembled)
    (hc : ¬ capacityMatches (functionMatrix s.params.version.toNat s.params.side.toNat).unsetCount
      s.params.ncw.toNat = true) :
    exec .qrBuild s = .next { s with phase := .fault, errcode := 5, done := true, err := true, latch := none } := by
  have hraise : exec .qrBuild s = raiseCmdError .capacityMismatch s := (if_neg (by simp [hp])).trans (if_pos hc)
  rw [hraise, raiseCmdError, if_pos rfl, State.settle_of_error (CmdError.code_ne_zero _)]
  rfl

theorem bufValid_of_fault {s : State} (hp : s.phase = .fault) :
    ∀ b ∈ [Buf.data, .ecc, .cw, .matrix], s.bufValid b = false := by
  simp [State.bufValid, hp, Phase.hasCodewords, Phase.hasMatrix]

/-- Every legal symbol passes the check: its UNSET modules are RAWMOD(V), and NCW(V) is RAWMOD(V) / 8 (R199). -/
theorem capacityMatches_of_legal {v : Nat} (h1 : 1 ≤ v) (h40 : v ≤ 40) :
    capacityMatches (functionMatrix v (sideOf v)).unsetCount (ncwOf v) = true := by
  have hrem : remOf v < 8 := Nat.mod_lt _ (by decide)
  rw [unsetCount_functionMatrix h1 h40, capacityMatches_iff, rawModules_eq]
  omega

/-- Settles O36: FAULT is a phase that no pipeline command but QR.BEGIN needs, so only QR.BEGIN and a reset leave it. -/
theorem capacityMismatchEntersFault : Obligations.CapacityMismatchEntersFault := by
  unfold Obligations.CapacityMismatchEntersFault
  have outside {s : State} (hp : s.phase = .fault) : s.phase.inPipeline = false := by rw [hp]; rfl
  refine ⟨?_, fun s hp => ⟨bufValid_of_fault hp, fun i hi => ?_⟩, fun s t hp h => ?_,
    fun v h1 h40 => capacityMatches_of_legal h1 h40⟩
  · rintro s _ hp rfl hmismatch
    exact exec_qrBuild_of_mismatch hp (mt capacityMatches_iff.mp hmismatch)
  · rw [exec_pipeline_of_not_inPipeline (outside hp) hi, State.settle_of_error (by decide)]
  · obtain hk | ⟨hseg, hcore, w, v, e, hlatch, hdecode, -⟩ | ⟨hr, hphase, -, -⟩ := step_of_not_inPipeline (outside hp) h
    · exact .inl (hk.phase.trans hp)
    · exact .inr (.inr ⟨hseg, hcore, w, v, e, hlatch, hdecode⟩)
    · exact .inr (.inl ⟨hphase, hr⟩)

end Sys2Proof.Machine

namespace Sys2Proof.Machine

/-! ### The mask functions (44_mask.md R220, R222, R223) -/

theorem maskApply_of_not_data {code : Byte} (hl : code ≠ dataCell false) (hd : code ≠ dataCell true) (k r c : Nat) :
    maskApply k r c code = code :=
  if_neg fun h => h.1.elim hl hd

theorem maskApply_dataCell (k r c : Nat) (dark : Bool) :
    maskApply k r c (dataCell dark) = dataCell (dark ^^ maskFlips k r c) := by
  unfold maskApply
  cases maskFlips k r c <;> cases dark <;> rfl

theorem maskApply_maskApply (k r c : Nat) (code : Byte) : maskApply k r c (maskApply k r c code) = code := by
  by_cases h : code = dataCell false ∨ code = dataCell true
  · obtain ⟨dark, rfl⟩ := dataCell_cases.mpr h
    rw [maskApply_dataCell, maskApply_dataCell, Bool.xor_assoc, Bool.xor_self, Bool.xor_false]
  · obtain ⟨hl, hd⟩ := not_or.mp h
    rw [maskApply_of_not_data hl hd, maskApply_of_not_data hl hd]

/-- Only the two data codes have bit 2 clear and are flipped, so a reserved module keeps its code (10_state.md R53). -/
theorem maskApply_of_reserved {code : Byte} (h : code.getLsbD 2 = true) (k r c : Nat) :
    maskApply k r c code = code := by
  refine maskApply_of_not_data ?_ ?_ k r c <;> rintro rfl <;> exact absurd h (by decide)

/-- A place outside the matrix reads as UNSET before and after masking, so no bound on the place is needed. -/
theorem cell_maskMatrix (k : Nat) (m : Matrix) (r c : Nat) :
    (maskMatrix k m).cell r c = maskApply k r c (m.cell r c) := by
  have hout : maskApply k r c 0#8 = 0#8 := maskApply_of_not_data (by decide) (by decide) k r c
  simp only [maskMatrix, mapFrom_eq_mapIdx, Matrix.cell, List.getD_eq_getElem?_getD, List.getElem?_mapIdx, Nat.zero_add]
  cases hrow : m[r]? with
  | none => simp [hout]
  | some row => cases hcell : row[c]? <;> simp [hcell, hout]

theorem candidate_getD (k : Nat) (m : Matrix) (r c : Nat) :
    ((candidate k m).getD r []).getD c false = cellDark (maskApply k r c (m.cell r c)) := by
  rw [← cell_maskMatrix]
  simp only [candidate, Matrix.cell, List.getD_eq_getElem?_getD, List.getElem?_map]
  cases (maskMatrix k m)[r]? with
  | none => simp [cellDark]
  | some row => cases hcell : row[c]? <;> simp [hcell, cellDark]

/-- Settles O37: masking acts cell by cell, on the two data codes only. -/
theorem maskingTouchesDataModulesOnly : Obligations.MaskingTouchesDataModulesOnly := by
  unfold Obligations.MaskingTouchesDataModulesOnly
  refine ⟨fun i j => ?_, by decide, fun k r c code => ?_, fun m k r c hreserved => ?_⟩
  · simp only [maskFlips, decide_eq_true_iff, and_self]
  · exact ⟨maskApply_maskApply k r c code, fun hl hd => maskApply_of_not_data hl hd k r c, maskApply_dataCell k r c⟩
  · rw [candidate_getD, maskApply_of_reserved hreserved, cellDark]

/-! ### The lines of a candidate (44_mask.md R224) -/

/-- A list is its entries read place by place. -/
theorem map_range_getD {α : Type} {n : Nat} {l : List α} (h : l.length = n) (d : α) :
    ((List.range n).map fun i => l.getD i d) = l := by
  subst h
  exact List.ext_getElem (by simp) fun i _ hi => by simp [hi]

theorem columnsOf_eq {α : Type} {width : Nat} {rows : List (List α)} (h : ∀ row ∈ rows, row.length = width) (d : α) :
    columnsOf width rows = (List.range width).map fun c => rows.map fun row => row.getD c d := by
  induction rows with
  | nil => simp [columnsOf]
  | cons row rest ih =>
    obtain ⟨hrow, hrest⟩ := List.forall_mem_cons.mp h
    calc columnsOf width (row :: rest)
      _ = List.zipWith List.cons row (columnsOf width rest) := rfl
      _ = List.zipWith List.cons ((List.range width).map fun c => row.getD c d)
            ((List.range width).map fun c => rest.map fun row => row.getD c d) := by
        rw [ih hrest, map_range_getD hrow]
      _ = (List.range width).map fun c => (row :: rest).map fun row => row.getD c d := by
        rw [List.zipWith_map, List.zipWith_self]
        rfl

/-- A rule that adds up over the lines adds up over the rows and over the columns, each read place by place. -/
theorem sum_map_lines {side : Nat} {rows : List (List Bool)} (hrows : rows.length = side)
    (hcols : ∀ row ∈ rows, row.length = side) (f : List Bool → Nat) :
    ((rows ++ columnsOf side rows).map f).sum =
      ((List.range side).map fun r => f (rows.getD r [])).sum +
      ((List.range side).map fun c => f ((List.range side).map fun r => (rows.getD r []).getD c false)).sum := by
  have hread {β : Type} (g : List Bool → β) : rows.map g = (List.range side).map fun r => g (rows.getD r []) := by
    conv_lhs => rw [← map_range_getD hrows [], List.map_map]
    rfl
  rw [List.map_append, List.sum_append, columnsOf_eq hcols false, List.map_map, hread f]
  simp only [Function.comp_def, hread]

/-! ### Rule 1: maximal runs (44_mask.md R225) -/

theorem pos_of_mem_runLengthsFrom {colour : Bool} {len : Nat} {line : List Bool} (hlen : 0 < len) :
    ∀ n ∈ runLengthsFrom colour len line, 0 < n := by
  induction line generalizing colour len with
  | nil => simpa [runLengthsFrom] using hlen
  | cons x rest ih =>
    rw [runLengthsFrom]
    split
    · exact ih (Nat.succ_pos len)
    · exact List.forall_mem_cons.mpr ⟨hlen, ih Nat.one_pos⟩

/-- The runs from here on rebuild the run begun before and the rest of the line. -/
theorem lineOfRuns_runLengthsFrom (colour : Bool) (len : Nat) (line : List Bool) :
    lineOfRuns colour (runLengthsFrom colour len line) = List.replicate len colour ++ line := by
  induction line generalizing colour len with
  | nil => simp [runLengthsFrom, lineOfRuns]
  | cons x rest ih =>
    rw [runLengthsFrom]
    split
    case isTrue hx => rw [ih, hx, List.replicate_succ', List.append_assoc, List.singleton_append]
    case isFalse hx =>
      have hflip : (!colour) = x := (Bool.eq_not_of_ne hx).symm
      rw [lineOfRuns, hflip, ih]
      rfl

theorem pos_of_mem_runLengths : (line : List Bool) → ∀ n ∈ runLengths line, 0 < n
  | [] => by simp [runLengths]
  | _ :: _ => pos_of_mem_runLengthsFrom Nat.one_pos

theorem lineOfRuns_runLengths : (line : List Bool) → lineOfRuns (line.headD false) (runLengths line) = line
  | [] => rfl
  | x :: rest => lineOfRuns_runLengthsFrom x 1 rest

theorem runPenalty_eq (n : Nat) : runPenalty n = if n < 5 then 0 else n - 2 := by
  unfold runPenalty
  split <;> split <;> omega

/-- Settles O38, by the runs still to come after a run that has already begun. -/
theorem ruleOneScoresTheMaximalRuns : Obligations.RuleOneScoresTheMaximalRuns := by
  unfold Obligations.RuleOneScoresTheMaximalRuns
  refine ⟨fun line => ⟨pos_of_mem_runLengths line, lineOfRuns_runLengths line, ?_⟩,
    fun side rows hrows hcols => sum_map_lines hrows hcols rule1Line⟩
  rw [rule1Line, funext runPenalty_eq]

/-! ### Rule 2: uniform 2×2 windows (44_mask.md R226) -/

/-- The windows of the two rows at the top of a matrix. -/
theorem rule2Rows_eq (rest : List (List Bool)) : (upper lower : List Bool) → upper.length = lower.length →
    rule2Rows upper lower =
      3 * (List.range (upper.length - 1)).countP fun c => windowUniform (upper :: lower :: rest) 0 c
  | [], _, _ => rfl
  | [_], _, _ => rfl
  | _ :: _ :: _, [], h => absurd h (by simp)
  | _ :: _ :: _, [_], h => absurd h (by simp)
  | a :: b :: upper, c :: d :: lower, h => by
    have hfirst : windowUniform ((a :: b :: upper) :: (c :: d :: lower) :: rest) 0 0 = true ↔
        a = b ∧ b = c ∧ c = d := by
      simp [windowUniform, and_assoc]
    have hshift (j : Nat) : windowUniform ((a :: b :: upper) :: (c :: d :: lower) :: rest) 0 (j + 1) =
        windowUniform ((b :: upper) :: (d :: lower) :: rest) 0 j := rfl
    have hrange : (a :: b :: upper).length - 1 = ((b :: upper).length - 1) + 1 := rfl
    rw [rule2Rows, rule2Rows_eq rest (b :: upper) (d :: lower) (by simpa using h), hrange, List.range_succ_eq_map,
      List.countP_cons, List.countP_map]
    simp only [hfirst, Function.comp_def, Nat.succ_eq_add_one, hshift]
    split <;> omega

theorem rule2_eq {width : Nat} : (rows : List (List Bool)) → (∀ row ∈ rows, row.length = width) →
    rule2 rows =
      3 * ((List.range (rows.length - 1)).flatMap fun r => (List.range (width - 1)).map fun c => (r, c)).countP
        fun p => windowUniform rows p.1 p.2
  | [], _ => rfl
  | [_], _ => rfl
  | upper :: lower :: rest, h => by
    obtain ⟨hupper, hrest⟩ := List.forall_mem_cons.mp h
    have hlower : lower.length = width := hrest _ List.mem_cons_self
    have hshift (r c : Nat) : windowUniform (upper :: lower :: rest) (r + 1) c =
        windowUniform (lower :: rest) r c := rfl
    have hrange : (upper :: lower :: rest).length - 1 = ((lower :: rest).length - 1) + 1 := rfl
    rw [rule2, rule2Rows_eq rest upper lower (hupper.trans hlower.symm), rule2_eq (lower :: rest) hrest, hupper, hrange,
      List.range_succ_eq_map, List.flatMap_cons, List.countP_append, List.countP_map, List.flatMap_map, Nat.mul_add]
    simp only [List.countP_flatMap, List.countP_map, Function.comp_def, Nat.succ_eq_add_one, hshift]

/-- Settles O39: the windows of each pair of neighbouring rows, counted row pair by row pair. -/
theorem ruleTwoCountsOverlappingWindows : Obligations.RuleTwoCountsOverlappingWindows := by
  unfold Obligations.RuleTwoCountsOverlappingWindows
  rintro side rows rfl hcols
  exact rule2_eq rows hcols

/-! ### Rule 3: finder-like windows (44_mask.md R227) -/

theorem rule3Line_eq (line : List Bool) :
    rule3Line line =
      40 * (List.range (line.length - 10)).countP fun i =>
        (line.drop i).take 11 = finderThenLight ∨ (line.drop i).take 11 = lightThenFinder := by
  induction line with
  | nil => rfl
  | cons x rest ih =>
    rw [rule3Line, ih]
    by_cases hlong : 10 ≤ rest.length
    · have hrange : (x :: rest).length - 10 = rest.length - 10 + 1 := Nat.succ_sub hlong
      rw [hrange, List.range_succ_eq_map, List.countP_cons, List.countP_map]
      simp only [List.drop_zero, decide_eq_true_iff, Function.comp_def, Nat.succ_eq_add_one, List.drop_succ_cons]
      split <;> omega
    · have hshort {window : List Bool} (hw : window.length = 11) : (x :: rest).take 11 ≠ window := by
        rintro rfl
        simp only [List.length_take, List.length_cons] at hw
        omega
      have hnone : (x :: rest).length - 10 = 0 ∧ rest.length - 10 = 0 := by
        simp only [List.length_cons]
        omega
      rw [if_neg (not_or.mpr ⟨hshort rfl, hshort rfl⟩), hnone.1, hnone.2]
      rfl

/-- Settles O40. -/
theorem ruleThreeCountsWindows : Obligations.RuleThreeCountsWindows := by
  unfold Obligations.RuleThreeCountsWindows
  exact ⟨rule3Line_eq, fun side rows hrows hcols => sum_map_lines hrows hcols rule3Line⟩

/-! ### Rule 4: the dark share (44_mask.md R228) -/

/-- An exact boundary belongs to the inner bucket. -/
theorem rule4_le_iff {total : Nat} (h : 0 < total) (dk k : Nat) :
    rule4 dk total ≤ 10 * k ↔ absDiff (20 * dk) (10 * total) ≤ (k + 1) * total := by
  rw [rule4, Nat.mul_le_mul_left_iff (by decide), Nat.sub_le_iff_le_add, ← Nat.ceilDiv_eq_add_pred_div,
    ceilDiv_le_iff_le_mul h, Nat.mul_comm total]

/-- Settles O41: each clause compares the bucket of the dark share with a number. -/
theorem ruleFourIsTheInnerBucket : Obligations.RuleFourIsTheInnerBucket := by
  unfold Obligations.RuleFourIsTheInnerBucket
  intro dk total htotal hdk
  obtain ⟨k, hk⟩ : ∃ k, rule4 dk total = 10 * k := ⟨_, rfl⟩
  have hbucket (j : Nat) : k ≤ j ↔ absDiff (20 * dk) (10 * total) ≤ (j + 1) * total := by
    rw [← rule4_le_iff htotal, hk, Nat.mul_le_mul_left_iff (by decide)]
  refine ⟨k, (hbucket 9).mpr ?_, hk, (hbucket k).mp le_rfl, fun hpos => Nat.lt_of_not_le fun hle => ?_, ?_⟩
  · rw [absDiff_le_iff]
    omega
  · have hinner : k ≤ k - 1 := (hbucket (k - 1)).mpr (by rwa [Nat.sub_add_cancel hpos])
    omega
  · rw [← Nat.le_zero, hbucket, absDiff_le_iff]
    omega

/-! ### The selected mask (44_mask.md R233) -/

/-- `best` is the first of the least totals among the ids below `n`; before any id is seen it is 0. -/
structure FirstLeast (totals : List Nat) (n best : Nat) : Prop where
  lt : best < max n 1
  le : ∀ k < n, totals.getD best 0 ≤ totals.getD k 0
  first : ∀ k < best, totals.getD best 0 < totals.getD k 0

theorem FirstLeast.succ {totals : List Nat} {n best : Nat} (h : FirstLeast totals n best) :
    FirstLeast totals (n + 1) (if totals.getD n 0 < totals.getD best 0 then n else best) := by
  split
  case isTrue hless =>
    refine ⟨by omega, fun k hk => ?_, fun k hk => hless.trans_le (h.le k hk)⟩
    obtain hk | rfl := Nat.lt_succ_iff_lt_or_eq.mp hk
    · exact hless.le.trans (h.le k hk)
    · exact le_rfl
  case isFalse hnot =>
    refine ⟨by have := h.lt; omega, fun k hk => ?_, h.first⟩
    obtain hk | rfl := Nat.lt_succ_iff_lt_or_eq.mp hk
    · exact h.le k hk
    · exact Nat.le_of_not_lt hnot

theorem firstLeast_foldl (totals : List Nat) (n : Nat) :
    FirstLeast totals n
      ((List.range n).foldl (fun best k => if totals.getD k 0 < totals.getD best 0 then k else best) 0) := by
  induction n with
  | zero => exact ⟨Nat.one_pos, fun k hk => absurd hk k.not_lt_zero, fun k hk => absurd hk k.not_lt_zero⟩
  | succ n ih =>
    rw [List.range_succ, List.foldl_append]
    exact ih.succ

theorem firstLeast_selectMask (totals : List Nat) : FirstLeast totals totals.length (selectMask totals) :=
  firstLeast_foldl totals totals.length

/-- Settles O42, by induction on the number of ids seen. -/
theorem selectionTakesTheLeastTotal : Obligations.SelectionTakesTheLeastTotal := by
  unfold Obligations.SelectionTakesTheLeastTotal
  intro totals hne
  obtain ⟨hlt, hle, hfirst⟩ := firstLeast_selectMask totals
  have hlen : 0 < totals.length := List.length_pos_iff.mpr hne
  exact ⟨by omega, fun k hk => ⟨hle k hk, hfirst k⟩⟩

/-! ### The information words (44_mask.md R239, R242) -/

theorem verinfoOf_of_lt {v : Nat} (h : v < 7) : verinfoOf v = 0 :=
  if_neg (Nat.not_le.mpr h)

/-- Settles O44: closed words, and no version word below version 7. -/
theorem informationWordsAgreeWithTheTables : Obligations.InformationWordsAgreeWithTheTables := by
  unfold Obligations.InformationWordsAgreeWithTheTables
  exact ⟨by decide, by decide, fun v => verinfoOf_of_lt⟩

end Sys2Proof.Machine

namespace Sys2Proof.Machine

/-! ### NOP (45_control.md R260) -/

/-- Settles O10: NOP has the reserved bits 31:8, and its one legal word is the row's own. -/
theorem nopOnlyReportsCompletion : Obligations.NopOnlyReportsCompletion := by
  unfold Obligations.NopOnlyReportsCompletion
  intro s
  have hexec : exec .nop s = .next { s with errcode := 0, done := true, latch := none } := finish_eq s
  have hword (w : Word) (hop : w.byteAt 0 = 0x00) :=
    complete_of_reservedFrom (lo := 8) (.head _) (by decide) rfl rfl hop.symm s
  exact ⟨hexec, ((hword 0x00000000 rfl).1 rfl).trans hexec, fun w hop => (hword w hop).2⟩

end Sys2Proof.Machine

namespace Sys2Proof.Machine

/-! ### Soft reset (70_reset_and_hazards.md R322) -/

/-- A 32-bit write of CTRL passes every access check, also while a command is pending (20_memory.md R77). -/
theorem access_write_ctrl (w : Word) (s : State) :
    access { kind := .write, width := 32, offset := 0x04, data := w } s = .next (writeCsr .ctrl w s) := by
  have hreg : csrAt? 4 = some .ctrl := by decide
  simp [access, hreg, allowedWhileBusy, Csr.readOnly]

theorem writeCsr_ctrl_of_clear {w : Word} (h : w.getLsbD 0 = false) (s : State) : writeCsr .ctrl w s = s :=
  if_neg (Bool.eq_false_iff.mp h)

theorem writeCsr_ctrl_of_set {w : Word} (h : w.getLsbD 0 = true) (s : State) : writeCsr .ctrl w s = softReset s :=
  if_pos h

/-- After reset every register but ID reads 0 (10_state.md R63). -/
theorem readCsr_reset : ∀ {r : Csr}, r ≠ .id → readCsr r State.reset = 0
  | .pen _, _ => Vector.getElem_replicate _
  | .selp _, _ => Vector.getElem_replicate _
  | .id, h => absurd rfl h
  | .ctrl, _ | .status, _ | .irqen, _ | .cmd, _ | .errcode, _ | .acccode, _ | .bitlen, _ | .version, _ | .eclevel, _
  | .side, _ | .ndata, _ | .ncw, _ | .blocks, _ | .rembits, _ | .mask, _ | .format, _ | .verinfo, _ | .gfres, _
  | .eccount, _ | .bufSel, _ | .bufAddr, _ | .bufData, _ | .seldark, _ => by decide

theorem bufValid_reset_iff (b : Buf) : State.reset.bufValid b = true ↔ b = .bits ∨ b = .rsin := by
  cases b <;> decide

/-- No register tells a soft reset from a hard one. -/
theorem readCsr_softReset (r : Csr) (s : State) : readCsr r (softReset s) = readCsr r State.reset := by
  cases r <;> rfl

theorem bufValid_softReset (b : Buf) (s : State) : (softReset s).bufValid b = State.reset.bufValid b := by
  cases b <;> rfl

/-- The draws of BITS and RSIN count power-ons only, so their unwritten bytes are kept with the written ones (R321). -/
theorem readByte_softReset {b : Buf} (h : b = .bits ∨ b = .rsin) (s : State) (i : Nat) :
    (softReset s).readByte b i = s.readByte b i := by
  obtain rfl | rfl := h <;> rfl

/-- Settles O55: the write is accepted, with bit 0 clear it keeps the state, and with bit 0 set it is a soft reset. -/
theorem softResetKeepsTheInputs : Obligations.SoftResetKeepsTheInputs := by
  unfold Obligations.SoftResetKeepsTheInputs
  intro w s
  refine ⟨_, access_write_ctrl w s, fun hclear => writeCsr_ctrl_of_clear hclear s, fun hset => ?_⟩
  rw [writeCsr_ctrl_of_set hset]
  have hregs (r : Csr) (hr : r ≠ .id) : readCsr r (softReset s) = 0 := (readCsr_softReset r s).trans (readCsr_reset hr)
  have hvalid (b : Buf) : (softReset s).bufValid b = true ↔ b = .bits ∨ b = .rsin := by
    rw [bufValid_softReset, bufValid_reset_iff]
  exact ⟨rfl, hregs, rfl, rfl, rfl, hvalid, readByte_softReset (.inl rfl) s, readByte_softReset (.inr rfl) s⟩

end Sys2Proof.Machine

namespace Sys2Proof

/-! ### A matched row decodes (30_encoding.md R100, R101) -/

/-- Every row's mask takes in the OPCODE, so a word that matches a row has the row's OPCODE. -/
theorem opcode_of_match {row : OpRow} {w : Word} (hrow : row ∈ opcodeMap) (h : w &&& row.mask = row.bits) :
    row.bits.byteAt 0 = w.byteAt 0 := by
  have hmasks : ∀ row ∈ opcodeMap, row.mask.byteAt 0 = BitVec.allOnes 8 := by decide
  have hand : (w &&& row.mask).byteAt 0 = w.byteAt 0 &&& row.mask.byteAt 0 := BitVec.extractLsb'_and
  rw [← h, hand, hmasks row hrow, BitVec.and_allOnes]

theorem decode_of_match {row : OpRow} {w : Word} (hrow : row ∈ opcodeMap) (h : w &&& row.mask = row.bits) :
    decode w = .ok (row.operands w) :=
  (decode_of_row hrow (opcode_of_match hrow h)).trans (if_pos h)

/-- A word decodes only by a row it matches. -/
theorem exists_match_of_decode {w : Word} {i : Instr} (h : decode w = .ok i) :
    ∃ row ∈ opcodeMap, w &&& row.mask = row.bits ∧ row.operands w = i := by
  cases hrow : opRow? w with
  | none => simp [decode, hrow] at h
  | some row =>
    obtain ⟨hmem, hop⟩ := mem_and_opcode_of_opRow? hrow
    rw [decode_of_row hmem hop] at h
    split at h
    · next hmatch => exact ⟨row, hmem, hmatch, Except.ok.inj h⟩
    · cases h

/-- Settles O3: a row's mask takes in the OPCODE, which no other row has. -/
theorem rowMatchesIffItDecodes : Obligations.RowMatchesIffItDecodes := by
  unfold Obligations.RowMatchesIffItDecodes
  refine ⟨fun w row hrow => ⟨fun h => ⟨opcode_of_match hrow h, decode_of_match hrow h⟩, fun ⟨hop, hdec⟩ => ?_⟩,
    fun w hnone => ?_⟩
  · by_contra hne
    rw [decode_of_reservedBit hrow hop hne] at hdec
    cases hdec
  · cases hd : decode w with
    | error e => exact ⟨e, rfl⟩
    | ok i =>
      obtain ⟨row, hrow, hmatch, -⟩ := exists_match_of_decode hd
      exact absurd hmatch (hnone row hrow)

/-! ### The fields of an encoded command (30_encoding.md R91 to R99) -/

/-- A field reads back what was put at its place, however wide the number. -/
theorem extractLsb'_fieldAt {lo n : Nat} (value : Nat) (h : lo + n ≤ 32) :
    (fieldAt lo value).extractLsb' lo n = BitVec.ofNat n value := by
  refine BitVec.eq_of_getLsbD_eq fun k hk => ?_
  rw [BitVec.getLsbD_extractLsb', fieldAt, BitVec.getLsbD_shiftLeft, BitVec.getLsbD_ofNat, BitVec.getLsbD_ofNat]
  simp [hk, show lo + k < 32 by omega, show k < 32 by omega]

/-- A field below the place of a number reads 0. -/
theorem extractLsb'_fieldAt_of_le {lo lo' n : Nat} (value : Nat) (h : lo' + n ≤ lo) :
    (fieldAt lo value).extractLsb' lo' n = 0 := by
  refine BitVec.eq_of_getLsbD_eq fun k hk => ?_
  simp [fieldAt, BitVec.getLsbD_extractLsb', show lo' + k < lo by omega]

/-- A field above a number that fits its own field reads 0. -/
theorem extractLsb'_fieldAt_of_lt {lo lo' value width : Nat} (n : Nat) (hv : value < 2 ^ width) (h : lo + width ≤ lo') :
    (fieldAt lo value).extractLsb' lo' n = 0 := by
  refine BitVec.eq_of_getLsbD_eq fun k hk => ?_
  have hbit : value.testBit (lo' + k - lo) = false :=
    Nat.testBit_lt_two_pow (hv.trans_le (Nat.pow_le_pow_right (by decide) (by omega)))
  simp [fieldAt, BitVec.getLsbD_extractLsb', BitVec.getLsbD_ofNat, hbit]

/-- The low operand of a word: the high one lies above it, the OPCODE below. -/
theorem extractLsb'_low_operand {lo n lo' : Nat} {op : Word} (low high : Nat) (hn : lo + n ≤ 32) (hhigh : lo + n ≤ lo')
    (hop : op.extractLsb' lo n = 0) :
    (fieldAt lo' high ||| fieldAt lo low ||| op).extractLsb' lo n = BitVec.ofNat n low := by
  rw [BitVec.extractLsb'_or, BitVec.extractLsb'_or, extractLsb'_fieldAt low hn, extractLsb'_fieldAt_of_le high hhigh, hop]
  simp

/-- The high operand of a word: the low one, which fits its field, and the OPCODE lie below it. -/
theorem extractLsb'_high_operand {lo n lo' width : Nat} {op : Word} {low : Nat} (high : Nat) (hn : lo' + n ≤ 32)
    (hlow : low < 2 ^ width) (hw : lo + width ≤ lo') (hop : op.extractLsb' lo' n = 0) :
    (fieldAt lo' high ||| fieldAt lo low ||| op).extractLsb' lo' n = BitVec.ofNat n high := by
  rw [BitVec.extractLsb'_or, BitVec.extractLsb'_or, extractLsb'_fieldAt high hn, extractLsb'_fieldAt_of_lt n hlow hw, hop]
  simp

/-- The only operand of a word. -/
theorem extractLsb'_operand {lo n : Nat} {op : Word} (value : Nat) (hn : lo + n ≤ 32) (hop : op.extractLsb' lo n = 0) :
    (fieldAt lo value ||| op).extractLsb' lo n = BitVec.ofNat n value := by
  rw [BitVec.extractLsb'_or, extractLsb'_fieldAt value hn, hop]
  simp

/-- A number read from its field is the number, where it fits. -/
theorem Word.field_of_extractLsb' {hi lo value : Nat} {w : Word}
    (h : w.extractLsb' lo (hi + 1 - lo) = BitVec.ofNat (hi + 1 - lo) value) (hv : value < 2 ^ (hi + 1 - lo)) :
    w.field hi lo = value := by
  rw [Word.field, h, BitVec.toNat_ofNat, Nat.mod_eq_of_lt hv]

/-- A command's word decodes to it when the row of its mnemonic reads its operands back (30_encoding.md R101). -/
theorem decode_encode_of_row {i : Instr} {row : OpRow} (k : Nat) (hk : opcodeMap[k]? = some row)
    (hname : row.mnemonic = Laws.RowMatch.mnemonicOf i) (hstatement : Laws.RowMatch.Statement i) (hwf : i.wf = true)
    (hoperands : row.operands (encode i) = i) : decode (encode i) = .ok i := by
  have hrow : row ∈ opcodeMap := List.mem_of_getElem? hk
  have hnames : (opcodeMap.map OpRow.mnemonic).Nodup := by decide
  obtain ⟨row', hrow', hname', hmatch⟩ := hstatement hwf
  obtain rfl : row' = row := List.inj_on_of_nodup_map hnames hrow' hrow (hname'.trans hname.symm)
  rw [decode_of_match hrow hmatch, hoperands]

/-- Settles O1, format by format: each operand is read back from its own field. -/
theorem encodedCommandDecodesBack : Obligations.EncodedCommandDecodesBack := by
  unfold Obligations.EncodedCommandDecodesBack
  intro i hwf
  have hbyte (v : Byte) : BitVec.ofNat 8 v.toNat = v := by simp
  cases i with
  | nop => exact decode_encode_of_row 0 rfl rfl Laws.RowMatch.nop hwf rfl
  | gfMul a b =>
    refine decode_encode_of_row 1 rfl rfl (Laws.RowMatch.gfMul a b) hwf (congrArg₂ Instr.gfMul ?_ ?_)
    · exact (extractLsb'_low_operand _ _ (by decide) (by decide) (by decide)).trans (hbyte a)
    · exact (extractLsb'_high_operand _ (by decide) a.isLt (by decide) (by decide)).trans (hbyte b)
  | gfPow a e =>
    refine decode_encode_of_row 2 rfl rfl (Laws.RowMatch.gfPow a e) hwf (congrArg₂ Instr.gfPow ?_ ?_)
    · exact (extractLsb'_low_operand _ _ (by decide) (by decide) (by decide)).trans (hbyte a)
    · exact Word.field_of_extractLsb' (extractLsb'_high_operand _ (by decide) a.isLt (by decide) (by decide))
        (of_decide_eq_true hwf)
  | gfExp x =>
    refine decode_encode_of_row 3 rfl rfl (Laws.RowMatch.gfExp x) hwf (congrArg Instr.gfExp ?_)
    exact (extractLsb'_operand _ (by decide) (by decide)).trans (hbyte x)
  | gfLog a =>
    refine decode_encode_of_row 4 rfl rfl (Laws.RowMatch.gfLog a) hwf (congrArg Instr.gfLog ?_)
    exact (extractLsb'_operand _ (by decide) (by decide)).trans (hbyte a)
  | rsGen n =>
    refine decode_encode_of_row 5 rfl rfl (Laws.RowMatch.rsGen n) hwf (congrArg Instr.rsGen ?_)
    exact Word.field_of_extractLsb' (extractLsb'_operand _ (by decide) (by decide)) (of_decide_eq_true hwf)
  | rsDiv n len =>
    obtain ⟨hn, hlen⟩ : n < 2 ^ 8 ∧ len < 2 ^ 9 := by simpa [Instr.wf] using hwf
    refine decode_encode_of_row 6 rfl rfl (Laws.RowMatch.rsDiv n len) hwf (congrArg₂ Instr.rsDiv ?_ ?_)
    · exact Word.field_of_extractLsb' (extractLsb'_low_operand _ _ (by decide) (by decide) (by decide)) hn
    · exact Word.field_of_extractLsb' (extractLsb'_high_operand _ (by decide) hn (by decide) (by decide)) hlen
  | qrBegin ver ecl =>
    obtain ⟨hver, hecl⟩ : ver < 2 ^ 6 ∧ ecl < 2 ^ 3 := by simpa [Instr.wf] using hwf
    refine decode_encode_of_row 7 rfl rfl (Laws.RowMatch.qrBegin ver ecl) hwf (congrArg₂ Instr.qrBegin ?_ ?_)
    · exact Word.field_of_extractLsb' (extractLsb'_low_operand _ _ (by decide) (by decide) (by decide)) hver
    · exact Word.field_of_extractLsb' (extractLsb'_high_operand _ (by decide) hver (by decide) (by decide)) hecl
  | qrAsm => exact decode_encode_of_row 8 rfl rfl Laws.RowMatch.qrAsm hwf rfl
  | qrBuild => exact decode_encode_of_row 9 rfl rfl Laws.RowMatch.qrBuild hwf rfl
  | qrEval => exact decode_encode_of_row 10 rfl rfl Laws.RowMatch.qrEval hwf rfl
  | qrFinal => exact decode_encode_of_row 11 rfl rfl Laws.RowMatch.qrFinal hwf rfl

/-- A field of a word, put back at its place. -/
theorem fieldAt_field {hi lo : Nat} (h : lo ≤ hi) (hhi : hi < 32) (w : Word) :
    fieldAt lo (w.field hi lo) = w &&& fieldMask hi lo := by
  refine BitVec.eq_of_getLsbD_eq fun k hk => ?_
  have hsize : w.field hi lo < 2 ^ (hi + 1 - lo) := BitVec.isLt _
  rw [BitVec.getLsbD_and, fieldMask_getLsbD hk, fieldAt, BitVec.getLsbD_shiftLeft, BitVec.getLsbD_ofNat, Word.field,
    BitVec.testBit_toNat, BitVec.getLsbD_extractLsb']
  by_cases hlo : lo ≤ k
  · rw [Nat.add_sub_cancel' hlo]
    simp [hk, hlo, show k - lo < 32 by omega, show k - lo < hi + 1 - lo ↔ k ≤ hi by omega, Bool.and_comm]
  · simp [hlo, show k < lo by omega]

/-- Fields that take in every bit a mask leaves give the word back with the masked bits. -/
theorem and_or_and_of_cover {fields mask : Word} (hcover : fields ||| mask = BitVec.allOnes 32) (w : Word) :
    w &&& fields ||| w &&& mask = w := by
  rw [← BitVec.and_or_distrib_left, hcover, BitVec.and_allOnes]

/-- A word of a format with one operand, at bits `hi` to `lo`. -/
theorem fieldAt_or_of_cover {hi lo : Nat} {mask bits w : Word} (hlo : lo ≤ hi) (hhi : hi < 32)
    (hmatch : w &&& mask = bits) (hcover : fieldMask hi lo ||| mask = BitVec.allOnes 32) :
    fieldAt lo (w.field hi lo) ||| bits = w := by
  rw [fieldAt_field hlo hhi, ← hmatch, and_or_and_of_cover hcover]

/-- A word of a format with two operands, at bits `hi'` to `lo'` and `hi` to `lo`. -/
theorem fieldAt_or_fieldAt_or_of_cover {hi lo hi' lo' : Nat} {mask bits w : Word} (hlo : lo ≤ hi) (hhi : hi < 32)
    (hlo' : lo' ≤ hi') (hhi' : hi' < 32) (hmatch : w &&& mask = bits)
    (hcover : fieldMask hi' lo' ||| fieldMask hi lo ||| mask = BitVec.allOnes 32) :
    fieldAt lo' (w.field hi' lo') ||| fieldAt lo (w.field hi lo) ||| bits = w := by
  rw [fieldAt_field hlo hhi, fieldAt_field hlo' hhi', ← hmatch, ← BitVec.and_or_distrib_left,
    and_or_and_of_cover hcover]

/-- A field is a number that fits it. -/
theorem Word.field_lt (hi lo : Nat) (w : Word) : w.field hi lo < 2 ^ (hi + 1 - lo) :=
  BitVec.isLt _

/-- Settles O2, row by row: the operands and the row's bits take in the whole word. -/
theorem decodedWordEncodesBack : Obligations.DecodedWordEncodesBack := by
  unfold Obligations.DecodedWordEncodesBack
  intro w i hdec
  obtain ⟨row, hrow, hmatch, rfl⟩ := exists_match_of_decode hdec
  have hall {bits : Word} (h : w &&& 0xFFFFFFFF#32 = bits) : bits = w := h.symm.trans BitVec.and_allOnes
  simp only [opcodeMap, List.mem_cons, List.not_mem_nil, or_false] at hrow
  obtain rfl | rfl | rfl | rfl | rfl | rfl | rfl | rfl | rfl | rfl | rfl | rfl := hrow
  · exact ⟨rfl, hall hmatch⟩
  · exact ⟨rfl, fieldAt_or_fieldAt_or_of_cover (hi := 15) (hi' := 23) (by decide) (by decide) (by decide) (by decide) hmatch
      (by decide)⟩
  · exact ⟨decide_eq_true (w.field_lt 31 16), fieldAt_or_fieldAt_or_of_cover (hi := 15) (by decide) (by decide) (by decide)
      (by decide) hmatch (by decide)⟩
  · exact ⟨rfl, fieldAt_or_of_cover (hi := 15) (by decide) (by decide) hmatch (by decide)⟩
  · exact ⟨rfl, fieldAt_or_of_cover (hi := 15) (by decide) (by decide) hmatch (by decide)⟩
  · exact ⟨decide_eq_true (w.field_lt 15 8), fieldAt_or_of_cover (by decide) (by decide) hmatch (by decide)⟩
  · refine ⟨?_, fieldAt_or_fieldAt_or_of_cover (by decide) (by decide) (by decide) (by decide) hmatch (by decide)⟩
    exact Bool.and_eq_true_iff.mpr ⟨decide_eq_true (w.field_lt 15 8), decide_eq_true (w.field_lt 24 16)⟩
  · refine ⟨?_, fieldAt_or_fieldAt_or_of_cover (by decide) (by decide) (by decide) (by decide) hmatch (by decide)⟩
    exact Bool.and_eq_true_iff.mpr ⟨decide_eq_true (w.field_lt 13 8), decide_eq_true (w.field_lt 18 16)⟩
  · exact ⟨rfl, hall hmatch⟩
  · exact ⟨rfl, hall hmatch⟩
  · exact ⟨rfl, hall hmatch⟩
  · exact ⟨rfl, hall hmatch⟩

end Sys2Proof

namespace Sys2Proof.Machine

/-! ### What a command does, said once (45_control.md R262) -/

/-- `Effect i s u`: the command `i` succeeds in state `s`, and `u` is `s` with the command's effects, before the completion
report (40_gf.md R125 to R128, 41_rs.md R145, R146, 42_assemble.md R160, R163, 43_matrix.md R190, 44_mask.md R230, R238). -/
inductive Effect : Instr → State → State → Prop
  | nop {s : State} : Effect .nop s s
  | gfMul {s : State} {a b : Byte} : Effect (.gfMul a b) s { s with gfres := gmul a b }
  | gfPow {s : State} {a : Byte} {e : Nat} : Effect (.gfPow a e) s { s with gfres := gpow a e }
  | gfExp {s : State} {x : Byte} : Effect (.gfExp x) s { s with gfres := Machine.gfExp x.toNat }
  | gfLog {s : State} {a : Byte} {x : Nat} (hlog : gfLog? a = some x) :
    Effect (.gfLog a) s { s with gfres := BitVec.ofNat 8 x }
  | rsGen {s : State} {n : Nat} (hn : n ≤ maxEc) :
    Effect (.rsGen n) s { s with
      bufs := s.bufs.load .gen (genPoly n)
      eccount := BitVec.ofNat 8 n
      genv := true
      rsv := false }
  | rsDiv {s : State} {n len : Nat} (hn : n ≤ maxEc) (h1 : 1 ≤ len) (h256 : len ≤ 256) :
    Effect (.rsDiv n len) s { s with
      bufs := (s.bufs.load .rsout (rsRem (s.readBlock .rsin len) n)).load .gen (genPoly n)
      eccount := BitVec.ofNat 8 n
      genv := true
      rsv := true }
  | qrBegin {s : State} {v e : Nat} (h1 : 1 ≤ v) (h40 : v ≤ 40) (he : e ≤ 3) :
    Effect (.qrBegin v e) s { s with
      params := paramsOf v e
      scores := Scores.zero
      format := 0
      verinfo := 0
      phase := .segmented }
  | qrAsm {s : State} (hp : s.phase = .segmented) (hlen : s.bitlen.toNat ≤ 8 * s.params.ndata.toNat)
    (hreach : overrun? (asmReach s) = none) :
    Effect .qrAsm s { s with
      bufs := ((s.bufs.load .data (assemble s.params s.segmentStream).data).load .ecc
        (assemble s.params s.segmentStream).ecc).load .cw (assemble s.params s.segmentStream).cw
      phase := .assembled }
  | qrBuild {s : State} (hp : s.phase = .assembled)
    (hc : capacityMatches (functionMatrix s.params.version.toNat s.params.side.toNat).unsetCount s.params.ncw.toNat = true)
    (hreach : overrun? (buildReach s) = none) :
    Effect .qrBuild s { s with
      bufs := s.bufs.load .matrix (buildMatrix s.params.version.toNat s.params.side.toNat
        (s.readBlock .cw s.params.ncw.toNat)).flatten
      phase := .matrixBuilt }
  | qrEval {s : State} (hp : s.phase = .matrixBuilt) (hreach : overrun? (matrixReach s) = none) :
    Effect .qrEval s { s with
      scores := scoresOf (laneScores s.params.side.toNat s.matrixRows)
      phase := .scored }
  | qrFinal {s : State} (hp : s.phase = .scored) (hreach : overrun? (matrixReach s) = none) :
    Effect .qrFinal s { s with
      bufs := s.bufs.load .matrix (finalMatrix s.params.version.toNat s.params.side.toNat s.scores.mask.toNat
        (formatWord s.params.eclevel.toNat s.scores.mask.toNat) s.matrixRows).flatten
      format := formatWord s.params.eclevel.toNat s.scores.mask.toNat
      verinfo := verinfoOf s.params.version.toNat
      phase := .finalized }

/-- A command whose effect is `u` completes in `u` with code 0. -/
theorem exec_of_effect {i : Instr} {s u : State} (h : Effect i s u) : exec i s = .next (u.settle 0) := by
  cases h with
  | nop => rfl
  | gfMul => rfl
  | gfPow => rfl
  | gfExp => rfl
  | gfLog hlog => simp only [exec, execGfLog, hlog, finish]
  | rsGen hn => exact if_neg (Nat.not_lt.mpr hn)
  | rsDiv hn h1 h256 => exact (if_neg (Nat.not_lt.mpr hn)).trans (if_neg (by omega))
  | qrBegin h1 h40 he => exact (if_neg (by omega)).trans (if_neg (by omega))
  | qrAsm hp hlen hreach =>
    simp only [exec, execQrAsm, if_neg (not_not.mpr hp), if_neg (Nat.not_lt.mpr hlen), hreach, finish]
  | qrBuild hp hc hreach =>
    simp only [exec, execQrBuild, if_neg (not_not.mpr hp), if_neg (not_not.mpr hc), hreach, finish]
  | qrEval hp hreach => simp only [exec, execQrEval, if_neg (not_not.mpr hp), hreach, finish]
  | qrFinal hp hreach => simp only [exec, execQrFinal, if_neg (not_not.mpr hp), hreach, finish]

/-- `Fails i s e`: the command `i` fails in state `s` with error `e` (60_exceptions.md R281). -/
inductive Fails : Instr → State → CmdError → Prop
  | logOfZero {s : State} {a : Byte} (hlog : gfLog? a = none) : Fails (.gfLog a) s .logOfZero
  | genDegree {s : State} {n : Nat} (hn : maxEc < n) : Fails (.rsGen n) s .invalidEcCount
  | divDegree {s : State} {n len : Nat} (hn : maxEc < n) : Fails (.rsDiv n len) s .invalidEcCount
  | divLength {s : State} {n len : Nat} (hn : n ≤ maxEc) (hlen : len = 0 ∨ 256 < len) : Fails (.rsDiv n len) s .invalidLength
  | version {s : State} {v e : Nat} (hv : v < 1 ∨ 40 < v) : Fails (.qrBegin v e) s .invalidVersion
  | level {s : State} {v e : Nat} (h1 : 1 ≤ v) (h40 : v ≤ 40) (he : 3 < e) : Fails (.qrBegin v e) s .invalidEcLevel
  | sequence {i : Instr} {need : Phase} {s : State}
    (hi : (i, need) ∈
      [(Instr.qrAsm, Phase.segmented), (.qrBuild, .assembled), (.qrEval, .matrixBuilt), (.qrFinal, .scored)])
    (hp : s.phase ≠ need) : Fails i s .sequenceError
  | payload {s : State} (hp : s.phase = .segmented) (hlen : 8 * s.params.ndata.toNat < s.bitlen.toNat) :
    Fails .qrAsm s .payloadTooLarge
  | capacity {s : State} (hp : s.phase = .assembled)
    (hc : ¬ capacityMatches (functionMatrix s.params.version.toNat s.params.side.toNat).unsetCount
      s.params.ncw.toNat = true) : Fails .qrBuild s .capacityMismatch

/-- `Overruns i s b`: the command `i` passes its checks in state `s` and would touch bytes of `b` that do not exist (log
entry 8). -/
inductive Overruns : Instr → State → Buf → Prop
  | qrAsm {s : State} {b : Buf} (hp : s.phase = .segmented) (hlen : s.bitlen.toNat ≤ 8 * s.params.ndata.toNat)
    (hreach : overrun? (asmReach s) = some b) : Overruns .qrAsm s b
  | qrBuild {s : State} {b : Buf} (hp : s.phase = .assembled)
    (hc : capacityMatches (functionMatrix s.params.version.toNat s.params.side.toNat).unsetCount s.params.ncw.toNat = true)
    (hreach : overrun? (buildReach s) = some b) : Overruns .qrBuild s b
  | qrEval {s : State} {b : Buf} (hp : s.phase = .matrixBuilt) (hreach : overrun? (matrixReach s) = some b) :
    Overruns .qrEval s b
  | qrFinal {s : State} {b : Buf} (hp : s.phase = .scored) (hreach : overrun? (matrixReach s) = some b) :
    Overruns .qrFinal s b

theorem exec_of_fails {i : Instr} {s : State} {e : CmdError} (h : Fails i s e) : exec i s = raiseCmdError e s := by
  cases h with
  | logOfZero hlog => simp only [exec, execGfLog, hlog]
  | genDegree hn => exact if_pos hn
  | divDegree hn => exact if_pos hn
  | divLength hn hlen => exact (if_neg (Nat.not_lt.mpr hn)).trans (if_pos hlen)
  | version hv => exact if_pos hv
  | level h1 h40 he => exact (if_neg (by omega)).trans (if_pos he)
  | sequence hi hp => exact (exec_of_wrong_phase hi hp).trans (raiseCmdError_of_ne (e := .sequenceError) (by decide) s).symm
  | payload hp hlen => exact (if_neg (not_not.mpr hp)).trans (if_pos hlen)
  | capacity hp hc => exact (if_neg (not_not.mpr hp)).trans (if_pos hc)

theorem exec_of_overruns {i : Instr} {s : State} {b : Buf} (h : Overruns i s b) :
    exec i s = .fault (.beyondCapacity b) := by
  cases h with
  | qrAsm hp hlen hreach => simp only [exec, execQrAsm, if_neg (not_not.mpr hp), if_neg (Nat.not_lt.mpr hlen), hreach]
  | qrBuild hp hc hreach => simp only [exec, execQrBuild, if_neg (not_not.mpr hp), if_neg (not_not.mpr hc), hreach]
  | qrEval hp hreach => simp only [exec, execQrEval, if_neg (not_not.mpr hp), hreach]
  | qrFinal hp hreach => simp only [exec, execQrFinal, if_neg (not_not.mpr hp), hreach]

/-- Every command succeeds, fails, or would overrun a buffer, in every state. -/
theorem effect_or_fails_or_overruns (i : Instr) (s : State) :
    (∃ u, Effect i s u) ∨ (∃ e, Fails i s e) ∨ ∃ b, Overruns i s b := by
  cases i with
  | nop => exact .inl ⟨_, .nop⟩
  | gfMul a b => exact .inl ⟨_, .gfMul⟩
  | gfPow a e => exact .inl ⟨_, .gfPow⟩
  | gfExp x => exact .inl ⟨_, .gfExp⟩
  | gfLog a =>
    cases hlog : gfLog? a with
    | none => exact .inr (.inl ⟨_, .logOfZero hlog⟩)
    | some x => exact .inl ⟨_, .gfLog hlog⟩
  | rsGen n =>
    by_cases hn : maxEc < n
    · exact .inr (.inl ⟨_, .genDegree hn⟩)
    · exact .inl ⟨_, .rsGen (Nat.not_lt.mp hn)⟩
  | rsDiv n len =>
    by_cases hn : maxEc < n
    · exact .inr (.inl ⟨_, .divDegree hn⟩)
    · by_cases hlen : len = 0 ∨ 256 < len
      · exact .inr (.inl ⟨_, .divLength (Nat.not_lt.mp hn) hlen⟩)
      · exact .inl ⟨_, .rsDiv (Nat.not_lt.mp hn) (by omega) (by omega)⟩
  | qrBegin v e =>
    by_cases hv : v < 1 ∨ 40 < v
    · exact .inr (.inl ⟨_, .version hv⟩)
    · by_cases he : 3 < e
      · exact .inr (.inl ⟨_, .level (by omega) (by omega) he⟩)
      · exact .inl ⟨_, .qrBegin (by omega) (by omega) (by omega)⟩
  | qrAsm =>
    by_cases hp : s.phase = .segmented
    · by_cases hlen : 8 * s.params.ndata.toNat < s.bitlen.toNat
      · exact .inr (.inl ⟨_, .payload hp hlen⟩)
      · cases hreach : overrun? (asmReach s) with
        | none => exact .inl ⟨_, .qrAsm hp (Nat.not_lt.mp hlen) hreach⟩
        | some b => exact .inr (.inr ⟨b, .qrAsm hp (Nat.not_lt.mp hlen) hreach⟩)
    · exact .inr (.inl ⟨_, .sequence (.head _) hp⟩)
  | qrBuild =>
    by_cases hp : s.phase = .assembled
    · by_cases hc : capacityMatches (functionMatrix s.params.version.toNat s.params.side.toNat).unsetCount
          s.params.ncw.toNat = true
      · cases hreach : overrun? (buildReach s) with
        | none => exact .inl ⟨_, .qrBuild hp hc hreach⟩
        | some b => exact .inr (.inr ⟨b, .qrBuild hp hc hreach⟩)
      · exact .inr (.inl ⟨_, .capacity hp hc⟩)
    · exact .inr (.inl ⟨_, .sequence (.tail _ (.head _)) hp⟩)
  | qrEval =>
    by_cases hp : s.phase = .matrixBuilt
    · cases hreach : overrun? (matrixReach s) with
      | none => exact .inl ⟨_, .qrEval hp hreach⟩
      | some b => exact .inr (.inr ⟨b, .qrEval hp hreach⟩)
    · exact .inr (.inl ⟨_, .sequence (.tail _ (.tail _ (.head _))) hp⟩)
  | qrFinal =>
    by_cases hp : s.phase = .scored
    · cases hreach : overrun? (matrixReach s) with
      | none => exact .inl ⟨_, .qrFinal hp hreach⟩
      | some b => exact .inr (.inr ⟨b, .qrFinal hp hreach⟩)
    · exact .inr (.inl ⟨_, .sequence (.tail _ (.tail _ (.tail _ (.head _)))) hp⟩)

/-- `Failure i s t`: the command `i` fails in state `s` and leaves `t`: the report of its error, and PHASE at FAULT after a
capacity mismatch only (45_control.md R262, 60_exceptions.md R285). -/
inductive Failure : Instr → State → State → Prop
  | report {i : Instr} {s : State} (e : CmdError) (he : e ≠ .capacityMismatch) : Failure i s (s.settle e.code)
  | mismatch {s : State} (hp : s.phase = .assembled) : Failure .qrBuild s ({ s with phase := .fault }.settle 5)

theorem failure_of_fails {i : Instr} {s t : State} {e : CmdError} (hf : Fails i s e) (h : raiseCmdError e s = .next t) :
    Failure i s t := by
  rw [raiseCmdError_eq_next h]
  cases hf with
  | capacity hp => exact .mismatch hp
  | _ => exact .report _ (by decide)

/-- The outcomes of a command that answers a next state: it succeeds, or it fails. -/
theorem exec_cases {i : Instr} {s t : State} (h : exec i s = .next t) :
    (∃ u, Effect i s u ∧ t = u.settle 0) ∨ Failure i s t := by
  obtain ⟨u, hu⟩ | ⟨e, he⟩ | ⟨b, hb⟩ := effect_or_fails_or_overruns i s
  · rw [exec_of_effect hu] at h
    cases h
    exact .inl ⟨u, hu, rfl⟩
  · rw [exec_of_fails he] at h
    exact .inr (failure_of_fails he h)
  · rw [exec_of_overruns hb] at h
    cases h

/-- The outcomes of a completion: a command that succeeds, a command that fails, or an illegal word (30_encoding.md R102). -/
theorem complete_cases {w : Word} {s t : State} (h : complete w s = .next t) :
    (∃ i, decode w = .ok i ∧ exec i s = .next t) ∨ ((∃ e, decode w = .error e) ∧ t = s.settle 1) := by
  cases hd : decode w with
  | ok i => exact .inl ⟨i, rfl, complete_of_decode hd s ▸ h⟩
  | error e =>
    rw [complete_of_illegal hd] at h
    exact .inr ⟨⟨e, rfl⟩, raiseCmdError_eq_next h⟩

/-- What neither an effect, nor a completion report, nor FAULT touches, no command changes. -/
theorem exec_keeps {α : Type} {f : State → α} (heffect : ∀ {i s u}, Effect i s u → f u = f s)
    (hsettle : ∀ code s, f (State.settle code s) = f s) (hfault : ∀ s, f { s with phase := .fault } = f s)
    {i : Instr} {s t : State} (h : exec i s = .next t) : f t = f s := by
  obtain ⟨u, hu, rfl⟩ | ⟨⟨e, -⟩ | ⟨-⟩⟩ := exec_cases h
  · exact (hsettle 0 u).trans (heffect hu)
  · exact hsettle _ s
  · exact (hsettle 5 _).trans (hfault s)

end Sys2Proof.Machine

namespace Sys2Proof.Machine

/-! ### Turns and completions (45_control.md R261 to R263) -/

/-- Settles O6. -/
theorem stepRunsThePendingCommand : Obligations.StepRunsThePendingCommand := by
  unfold Obligations.StepRunsThePendingCommand
  intro s w i hlatch hdec
  have hcore (turns : List Turn) : coreTurn { s with agenda := turns } = exec i { s with agenda := turns } :=
    (coreTurn_of_pending (s := { s with agenda := turns }) hlatch).trans (complete_of_decode hdec _)
  refine ⟨fun hnil => ?_, fun rest hcons => ?_⟩
  · exact (step_of_agenda_nil hnil).trans ((coreTurn_of_pending hlatch).trans (complete_of_decode hdec s))
  · exact (step_of_agenda_cons hcons).trans (hcore rest)

/-- An idle host's 32-bit write of CMD issues the word, whatever it is (10_state.md R29). -/
theorem access_write_cmd (w : Word) {s : State} (h : s.latch = none) :
    access { kind := .write, width := 32, offset := 0x10, data := w } s = .next (s.issue w) := by
  have hreg : csrAt? 16 = some .cmd := by decide
  simp [access, hreg, State.busy, h, Csr.readOnly, writeCsr]

/-- Settles O7: the agenda and the latch say which turn a step takes. -/
theorem stepTakesOneTurn : Obligations.StepTakesOneTurn := by
  unfold Obligations.StepTakesOneTurn
  intro s rest
  have hissue (w : Word) (hidle : s.latch = none)
      (hturns : s.agenda = .host { kind := .write, width := 32, offset := 0x10, data := w } :: .core :: rest) :
      ∃ t, step s = .next t ∧ t = { s with lastCmd := w, latch := some w, agenda := .core :: rest } ∧
        step t = complete w { t with agenda := rest } :=
    ⟨_, (step_of_agenda_cons hturns).trans (access_write_cmd w (s := { s with agenda := .core :: rest }) hidle), rfl, rfl⟩
  refine ⟨fun a h => step_of_agenda_cons h, fun h hidle => ?_, fun h => step_of_agenda_cons h, fun h hidle => ?_,
    fun w hlatch h => ?_, fun w hlatch h => ?_, hissue, fun i hwf hidle hturns => ?_⟩
  · exact (step_of_agenda_cons h).trans (coreTurn_of_idle (s := { s with agenda := rest }) hidle)
  · exact (step_of_agenda_nil h).trans (coreTurn_of_idle hidle)
  · exact (step_of_agenda_nil h).trans (coreTurn_of_pending hlatch)
  · exact (step_of_agenda_cons h).trans (coreTurn_of_pending (s := { s with agenda := rest }) hlatch)
  · have hword : BitVec.ofNat 32 (encode i).toNat = encode i := by simp
    rw [writeTurn, hword] at hturns
    obtain ⟨t, hstep, ht, hcomplete⟩ := hissue (encode i) hidle hturns
    exact ⟨t, hstep, ht, hcomplete.trans (complete_of_decode (encodedCommandDecodesBack i hwf) _)⟩

theorem effect_err {i : Instr} {s u : State} (h : Effect i s u) : u.err = s.err := by
  cases h <;> rfl

/-- A command that fails reports a non-zero code, and changes nothing else but PHASE for CapacityMismatch (R262). -/
theorem failure_eq {i : Instr} {s t : State} (h : Failure i s t) :
    t.errcode ≠ 0 ∧ t = { s with
      errcode := t.errcode
      done := true
      err := true
      latch := none
      phase := if t.errcode = 5 then .fault else s.phase } := by
  cases h with
  | report e he =>
    have hcode : e.code ≠ 5 := by revert he; cases e <;> decide
    refine ⟨e.code_ne_zero, ?_⟩
    rw [State.settle_of_error e.code_ne_zero, if_neg hcode]
  | mismatch hp =>
    have hcode : (5 : BitVec 8) ≠ 0 := by decide
    refine ⟨hcode, ?_⟩
    rw [State.settle_of_error hcode, if_pos rfl]

/-- Settles O9: success reports code 0, failure its own code, and an illegal word code 1. -/
theorem completionReportsAllOrNothing : Obligations.CompletionReportsAllOrNothing := by
  unfold Obligations.CompletionReportsAllOrNothing
  intro w s t h
  have hfail {i : Instr} (hf : Failure i s t) : t.latch = none ∧ t.done = true ∧ (t.err = true ↔ s.err = true ∨ t.errcode ≠ 0) ∧
      (t.errcode ≠ 0 →
        t = { s with
          errcode := t.errcode
          done := true
          err := true
          latch := none
          phase := if t.errcode = 5 then .fault else s.phase }) := by
    obtain ⟨hcode, ht⟩ := failure_eq hf
    refine ⟨by rw [ht], by rw [ht], ?_, fun _ => ht⟩
    exact iff_of_true (by rw [ht]) (.inr hcode)
  obtain ⟨i, -, hexec⟩ | ⟨-, rfl⟩ := complete_cases h
  · obtain ⟨u, hu, rfl⟩ | hf := exec_cases hexec
    · refine ⟨rfl, rfl, ?_, fun hcode => absurd rfl hcode⟩
      simp [effect_err hu]
    · exact hfail hf
  · exact hfail (i := .nop) (.report .illegalCommand (by decide))

/-! ### Which buffers a command writes (10_state.md R51, 45_control.md R267) -/

theorem SameBytesExcept.refl (changed : List Buf) (s : State) : SameBytesExcept changed s s :=
  fun _ _ _ => rfl

theorem SameBytesExcept.mono {changed changed' : List Buf} {s t : State} (h : SameBytesExcept changed s t)
    (hsub : changed ⊆ changed') : SameBytesExcept changed' s t :=
  fun b hb => h b fun hmem => hb (hsub hmem)

/-- Buffers whose contents are kept read the same between resets. -/
theorem sameBytesExcept_of_get {changed : List Buf} {s t : State} (hget : ∀ b ∉ changed, t.bufs.get b = s.bufs.get b)
    (hp : t.powerOns = s.powerOns) (hr : t.resets = s.resets) : SameBytesExcept changed s t :=
  fun b hb => State.readByte_congr (hget b hb) hp hr

/-- The buffers a command writes when it succeeds (41_rs.md R145, R146, 42_assemble.md R163, 43_matrix.md R190, 44_mask.md
R238). -/
def writtenBufs : Instr → List Buf
  | .rsGen _ => [.gen]
  | .rsDiv _ _ => [.rsout, .gen]
  | .qrAsm => [.data, .ecc, .cw]
  | .qrBuild => [.matrix]
  | .qrFinal => [.matrix]
  | _ => []

theorem get_of_effect {i : Instr} {s u : State} (h : Effect i s u) {b : Buf} (hb : b ∉ writtenBufs i) :
    u.bufs.get b = s.bufs.get b := by
  have hload {b' : Buf} (bytes : List Byte) (bs : Buffers) (hmem : b' ∈ writtenBufs i) :
      (bs.load b' bytes).get b = bs.get b :=
    Buffers.get_load_other bytes bs fun heq => hb (heq ▸ hmem)
  cases h with
  | rsGen => exact hload _ _ (.head _)
  | rsDiv => exact (hload _ _ (.tail _ (.head _))).trans (hload _ _ (.head _))
  | qrAsm => exact ((hload _ _ (by decide)).trans (hload _ _ (by decide))).trans (hload _ _ (by decide))
  | qrBuild => exact hload _ _ (by decide)
  | qrFinal => exact hload _ _ (by decide)
  | nop | gfMul | gfPow | gfExp | gfLog | qrBegin | qrEval => rfl

theorem exec_sameBytes {i : Instr} {s t : State} (h : exec i s = .next t) : SameBytesExcept (writtenBufs i) s t := by
  obtain ⟨u, hu, rfl⟩ | ⟨⟨e, -⟩ | ⟨-⟩⟩ := exec_cases h
  · refine sameBytesExcept_of_get (fun b => get_of_effect hu) ?_ ?_ <;> cases hu <;> rfl
  · exact SameBytesExcept.refl _ s
  · exact SameBytesExcept.refl _ s

theorem writtenBufs_of_not_pipeline {i : Instr} (hbegin : ∀ v e, i ≠ .qrBegin v e)
    (hi : i ∉ [Instr.qrAsm, .qrBuild, .qrEval, .qrFinal]) : writtenBufs i ⊆ [.rsout, .gen] := by
  cases i <;> simp_all [writtenBufs]

theorem writtenBufs_of_pipeline {i : Instr}
    (hi : (∃ v e, i = .qrBegin v e) ∨ i ∈ [Instr.qrAsm, .qrBuild, .qrEval, .qrFinal]) :
    writtenBufs i ⊆ [.data, .ecc, .cw, .matrix] := by
  cases i <;> simp_all [writtenBufs]

/-- Settles O46, by the effects of the two families: a failed command writes its report only. -/
theorem commandFamiliesWriteApart : Obligations.CommandFamiliesWriteApart := by
  unfold Obligations.CommandFamiliesWriteApart
  refine ⟨fun i s t hbegin hi h => ⟨?_, (exec_sameBytes h).mono (writtenBufs_of_not_pipeline hbegin hi)⟩,
    fun i s t hi h => ?_⟩
  · obtain ⟨u, hu, rfl⟩ | hf := exec_cases h
    · cases hu with
      | nop | gfMul | gfPow | gfExp | gfLog | rsGen | rsDiv => rfl
      | qrBegin => exact absurd rfl (hbegin _ _)
      | qrAsm | qrBuild | qrEval | qrFinal => exact absurd (by decide) hi
    · cases hf with
      | report => rfl
      | mismatch => exact absurd (by decide) hi
  · refine ⟨?_, ?_, ?_, ?_, (exec_sameBytes h).mono (writtenBufs_of_pipeline hi)⟩
    all_goals
      obtain ⟨u, hu, rfl⟩ | ⟨⟨e, -⟩ | ⟨-⟩⟩ := exec_cases h
      · cases hu with
        | qrBegin | qrAsm | qrBuild | qrEval | qrFinal => rfl
        | _ => simp at hi
      · rfl
      · rfl

/-! ### Which buffers the host writes (10_state.md R51, 20_memory.md R82) -/

theorem sameBytes_writeByte (b : Buf) (i : Nat) (v : Byte) (s : State) : SameBytesExcept [b] s (s.writeByte b i v) :=
  fun _ hc _ => State.readByte_writeByte_other v s (.inl (List.ne_of_not_mem_cons hc))

theorem Buf.hostWritable_iff (b : Buf) : b.hostWritable = true ↔ b = .bits ∨ b = .rsin := by
  cases b <;> decide

theorem sameBytes_accessPort {k : AccessKind} {w : Word} {s t : State} (h : accessPort k w s = .next t) :
    SameBytesExcept [.bits, .rsin] s t := by
  obtain ⟨e, -, rfl⟩ | ⟨b, -, -, -, rfl⟩ | ⟨b, hb, -, rfl, rfl⟩ := accessPort_cases h
  · exact SameBytesExcept.refl _ s
  · exact SameBytesExcept.refl _ s
  · refine (sameBytes_writeByte b _ _ s).mono fun c hc => ?_
    simpa [List.mem_singleton.mp hc] using (Buf.hostWritable_iff b).mp (hostWritable_of_portCheck hb)

/-- A register write that is no soft reset writes no buffer and resets nothing. -/
theorem bufs_writeCsr {r : Csr} {w : Word} (h : r = .ctrl → w.getLsbD 0 = false) (s : State) :
    (writeCsr r w s).bufs = s.bufs ∧ (writeCsr r w s).powerOns = s.powerOns ∧ (writeCsr r w s).resets = s.resets := by
  cases r
  case ctrl =>
    rw [writeCsr_ctrl_of_clear (h rfl)]
    exact ⟨rfl, rfl, rfl⟩
  all_goals exact ⟨rfl, rfl, rfl⟩

/-- The outcomes of a host transaction that is no soft reset: a report, a port access, the answer of a register, or a register
write that is not a reset. -/
theorem access_cases_of_not_isSoftReset {a : Access} {s t : State} (hs : a.isSoftReset = false) (h : access a s = .next t) :
    (∃ e, t = rejectAccess e a.kind s) ∨
    (s.busy = false ∧ accessPort a.kind a.data s = .next t) ∨
    (∃ r, t = { s with busData := readCsr r s }) ∨
    (∃ r, (s.busy = true → r = .ctrl ∨ r = .status ∨ r = .irqen) ∧ (r = .ctrl → a.data.getLsbD 0 = false) ∧
      t = writeCsr r a.data s) := by
  by_cases hshape : a.width ≠ 32 ∨ a.offset.toNat % 4 ≠ 0
  · rw [access_of_badShape hshape] at h
    cases h
    exact .inl ⟨_, rfl⟩
  · obtain ⟨hw, ha⟩ : a.width = 32 ∧ a.offset.toNat % 4 = 0 := by tauto
    obtain ⟨e, rfl⟩ | ⟨-, hb, hp⟩ | ⟨r, -, -, -, rfl⟩ | ⟨r, hr, -, -, hk, hbusy, rfl⟩ := access_cases h
    · exact .inl ⟨e, rfl⟩
    · exact .inr (.inl ⟨hb, hp⟩)
    · exact .inr (.inr (.inl ⟨r, rfl⟩))
    · refine .inr (.inr (.inr ⟨r, hbusy, fun e => ?_, rfl⟩))
      exact bit0_clear_of_not_isSoftReset hs hk hw ha (e ▸ hr)

theorem sameBytes_access {a : Access} {s t : State} (hs : a.isSoftReset = false) (h : access a s = .next t) :
    SameBytesExcept [.bits, .rsin] s t := by
  obtain ⟨e, rfl⟩ | ⟨-, hp⟩ | ⟨r, rfl⟩ | ⟨r, -, hclear, rfl⟩ := access_cases_of_not_isSoftReset hs h
  · exact SameBytesExcept.refl _ s
  · exact sameBytes_accessPort hp
  · exact SameBytesExcept.refl _ s
  · obtain ⟨hbufs, hp, hr⟩ := bufs_writeCsr hclear s
    exact sameBytesExcept_of_get (fun b _ => by rw [hbufs]) hp hr

/-- Settles O47: no command's buffers are among BITS and RSIN, and the port writes no other. -/
theorem commandsAndHostWriteApart : Obligations.CommandsAndHostWriteApart := by
  unfold Obligations.CommandsAndHostWriteApart
  refine ⟨fun i s t h => ?_, fun a s t => sameBytes_access⟩
  have hinputs : Buf.bits ∉ writtenBufs i ∧ Buf.rsin ∉ writtenBufs i := by cases i <;> simp [writtenBufs]
  have hregs : (t.bitlen, t.irqen, t.bufSel, t.bufAddr, t.lastCmd, t.acccode, t.accErr) =
      (s.bitlen, s.irqen, s.bufSel, s.bufAddr, s.lastCmd, s.acccode, s.accErr) :=
    exec_keeps (f := fun s => (s.bitlen, s.irqen, s.bufSel, s.bufAddr, s.lastCmd, s.acccode, s.accErr))
      (fun hu => by cases hu <;> rfl) (fun _ _ => rfl) (fun _ => rfl) h
  simp only [Prod.mk.injEq] at hregs
  exact ⟨exec_sameBytes h _ hinputs.1, exec_sameBytes h _ hinputs.2, hregs⟩

/-! ### The phases (10_state.md R56) -/

/-- A command that succeeds goes from the phase it requires to its own, or is no pipeline command and keeps PHASE. -/
theorem phase_of_effect {i : Instr} {s u : State} (h : Effect i s u) :
    (u.phase = s.phase ∧ (∀ v e, i ≠ .qrBegin v e) ∧ i ∉ [Instr.qrAsm, .qrBuild, .qrEval, .qrFinal]) ∨
    ((∃ v e, i = .qrBegin v e) ∧ u.phase = .segmented) ∨
    (i = .qrAsm ∧ s.phase = .segmented ∧ u.phase = .assembled) ∨
    (i = .qrBuild ∧ s.phase = .assembled ∧ u.phase = .matrixBuilt) ∨
    (i = .qrEval ∧ s.phase = .matrixBuilt ∧ u.phase = .scored) ∨
    (i = .qrFinal ∧ s.phase = .scored ∧ u.phase = .finalized) := by
  cases h <;> simp_all

/-- The phases a command's completion can leave. -/
theorem phase_of_exec {i : Instr} {s t : State} (h : exec i s = .next t) :
    t.phase = s.phase ∨
    ((∃ v e, i = .qrBegin v e) ∧ t.phase = .segmented ∧ t.errcode = 0) ∨
    (i = .qrAsm ∧ s.phase = .segmented ∧ t.phase = .assembled ∧ t.errcode = 0) ∨
    (i = .qrBuild ∧ s.phase = .assembled ∧ t.phase = .matrixBuilt ∧ t.errcode = 0) ∨
    (i = .qrBuild ∧ s.phase = .assembled ∧ t.phase = .fault ∧ t.errcode = 5) ∨
    (i = .qrEval ∧ s.phase = .matrixBuilt ∧ t.phase = .scored ∧ t.errcode = 0) ∨
    (i = .qrFinal ∧ s.phase = .scored ∧ t.phase = .finalized ∧ t.errcode = 0) := by
  obtain ⟨u, hu, rfl⟩ | ⟨⟨e, -⟩ | ⟨hp⟩⟩ := exec_cases h
  · obtain ⟨hsame, -⟩ | ⟨hi, hq⟩ | ⟨hi, hp, hq⟩ | ⟨hi, hp, hq⟩ | ⟨hi, hp, hq⟩ | ⟨hi, hp, hq⟩ := phase_of_effect hu
    · exact .inl hsame
    · exact .inr (.inl ⟨hi, hq, rfl⟩)
    · exact .inr (.inr (.inl ⟨hi, hp, hq, rfl⟩))
    · exact .inr (.inr (.inr (.inl ⟨hi, hp, hq, rfl⟩)))
    · exact .inr (.inr (.inr (.inr (.inr (.inl ⟨hi, hp, hq, rfl⟩)))))
    · exact .inr (.inr (.inr (.inr (.inr (.inr ⟨hi, hp, hq, rfl⟩)))))
  · exact .inl rfl
  · exact .inr (.inr (.inr (.inr (.inl ⟨rfl, hp, rfl, rfl⟩))))

theorem phase_of_success {i : Instr} {s t : State} (h : exec i s = .next t) (hcode : t.errcode = 0) :
    ((∃ v e, i = .qrBegin v e) → t.phase = .segmented) ∧ (i = .qrAsm → t.phase = .assembled) ∧
    (i = .qrBuild → t.phase = .matrixBuilt) ∧ (i = .qrEval → t.phase = .scored) ∧
    (i = .qrFinal → t.phase = .finalized) := by
  obtain ⟨u, hu, rfl⟩ | hf := exec_cases h
  · rw [State.settle_phase]
    cases hu <;> simp
  · exact absurd hcode (failure_eq hf).1

/-- A turn of the core changes PHASE only by completing a pipeline command. -/
theorem phase_of_coreTurn {s t : State} (h : coreTurn s = .next t) :
    t.phase = s.phase ∨ ∃ w i, s.latch = some w ∧ decode w = .ok i ∧
      ((∃ v e, i = .qrBegin v e) ∨ i ∈ [Instr.qrAsm, .qrBuild, .qrEval, .qrFinal]) ∧ exec i s = .next t := by
  cases hl : s.latch with
  | none =>
    rw [coreTurn_of_idle hl] at h
    cases h
    exact .inl rfl
  | some w =>
    rw [coreTurn_of_pending hl] at h
    obtain ⟨i, hdec, hexec⟩ | ⟨-, rfl⟩ := complete_cases h
    · refine (phase_of_exec hexec).imp_right fun hmove => ⟨w, i, rfl, hdec, ?_, hexec⟩
      obtain ⟨hbegin, -⟩ | ⟨rfl, -⟩ | ⟨rfl, -⟩ | ⟨rfl, -⟩ | ⟨rfl, -⟩ | ⟨rfl, -⟩ := hmove
      · exact .inl hbegin
      all_goals exact .inr (by decide)
    · exact .inl rfl

/-- Settles O27: a step is a turn of the core, a reset, or a host transaction, which keeps the symbol with its phase. -/
theorem phaseChangesFollowTheTable : Obligations.PhaseChangesFollowTheTable := by
  unfold Obligations.PhaseChangesFollowTheTable
  refine ⟨fun i s t => phase_of_exec, fun i s t => phase_of_success, fun i need s hi hp => ?_, fun s t h => ?_,
    fun s t hr h => (step_reset_fields hr h).1⟩
  · rw [exec_of_wrong_phase hi hp, State.settle_of_error (by decide)]
  · obtain hc | hr | ⟨a, rest, ha, hs⟩ := turn_cases s
    · rw [step_of_coreNext hc] at h
      exact (phase_of_coreTurn h).imp_right fun hmove => .inr ⟨hc, hmove⟩
    · exact .inr (.inl ⟨hr, (step_reset_fields hr h).1⟩)
    · rw [step_of_agenda_cons hs] at h
      exact .inl (symbolKept_access ha h).phase

end Sys2Proof.Machine

namespace Sys2Proof.Machine

/-! ### What a pending command reads (20_memory.md R77, 45_control.md R263) -/

/-- What a command does in a state it does in the state without what the host may change meanwhile. -/
theorem effect_commandView {i : Instr} {s u : State} (h : Effect i s u) : Effect i s.commandView u.commandView := by
  cases h <;> constructor <;> assumption

theorem fails_commandView {i : Instr} {s : State} {e : CmdError} (h : Fails i s e) : Fails i s.commandView e := by
  cases h <;> constructor <;> assumption

theorem overruns_commandView {i : Instr} {s : State} {b : Buf} (h : Overruns i s b) : Overruns i s.commandView b := by
  cases h <;> constructor <;> assumption

/-- A command's outcome, but for what the host may change meanwhile, is that of the state without it. -/
theorem commandOutcome_exec (i : Instr) (s : State) : commandOutcome (exec i s) = commandOutcome (exec i s.commandView) := by
  obtain ⟨u, hu⟩ | ⟨e, he⟩ | ⟨b, hb⟩ := effect_or_fails_or_overruns i s
  · rw [exec_of_effect hu, exec_of_effect (effect_commandView hu)]
    rfl
  · rw [exec_of_fails he, exec_of_fails (fails_commandView he), raiseCmdError, raiseCmdError]
    split <;> rfl
  · rw [exec_of_overruns hb, exec_of_overruns (overruns_commandView hb)]

theorem commandOutcome_coreTurn (s : State) : commandOutcome (coreTurn s) = commandOutcome (coreTurn s.commandView) := by
  cases hl : s.latch with
  | none => rw [coreTurn_of_idle hl, coreTurn_of_idle (s := s.commandView) hl]; rfl
  | some w =>
    rw [coreTurn_of_pending hl, coreTurn_of_pending (s := s.commandView) hl]
    cases hd : decode w with
    | error e => rw [complete_of_illegal hd, complete_of_illegal hd]; rfl
    | ok i => rw [complete_of_decode hd, complete_of_decode hd, commandOutcome_exec]

/-- While a command is pending no transaction reaches the buffer port, so none stops the machine (20_memory.md R77). -/
theorem exists_access_of_busy (a : Access) {s : State} (h : s.busy = true) : ∃ t, access a s = .next t := by
  unfold access
  split
  · exact ⟨_, rfl⟩
  · split
    · exact ⟨_, rfl⟩
    · next r _ =>
      split
      · exact ⟨_, rfl⟩
      · next hallowed =>
        have hport : r ≠ .bufData := by
          rintro rfl
          cases hk : a.kind <;> simp [h, hk, allowedWhileBusy] at hallowed
        rw [if_neg hport]
        split
        · exact ⟨_, rfl⟩
        · split <;> exact ⟨_, rfl⟩

/-- While a command is pending the host changes only what the command's outcome does not show (20_memory.md R77). -/
theorem commandView_access {a : Access} {s t : State} (hbusy : s.busy = true) (hs : a.isSoftReset = false)
    (h : access a s = .next t) : t.commandView = s.commandView := by
  obtain ⟨e, rfl⟩ | ⟨hidle, -⟩ | ⟨r, rfl⟩ | ⟨r, hr, hclear, rfl⟩ := access_cases_of_not_isSoftReset hs h
  · rfl
  · exact absurd hbusy (by simp [hidle])
  · rfl
  · obtain rfl | rfl | rfl := hr hbusy
    · rw [writeCsr_ctrl_of_clear (hclear rfl)]
    · rfl
    · rfl

theorem latch_of_commandView {s t : State} (h : t.commandView = s.commandView) : t.latch = s.latch := by
  have hview : t.commandView.latch = s.commandView.latch := by rw [h]
  exact hview

/-- Settles O8, by induction on the transactions: each one keeps what the command's outcome depends on. -/
theorem pendingCommandIgnoresTheHost : Obligations.PendingCommandIgnoresTheHost := by
  unfold Obligations.PendingCommandIgnoresTheHost
  have view (as : List Access) (s : State) (hbusy : s.busy = true) (hsoft : ∀ a ∈ as, a.isSoftReset = false) :
      ∃ t, hostRun as s = .next t ∧ t.commandView = s.commandView := by
    induction as generalizing s with
    | nil => exact ⟨s, rfl, rfl⟩
    | cons a rest ih =>
      obtain ⟨ha, hrest⟩ := List.forall_mem_cons.mp hsoft
      obtain ⟨u, hu⟩ := exists_access_of_busy a hbusy
      have hview := commandView_access hbusy ha hu
      have hlatch : u.latch = s.latch := latch_of_commandView hview
      obtain ⟨t, ht, htu⟩ := ih u (by rw [State.busy, hlatch]; exact hbusy) hrest
      exact ⟨t, by simp only [hostRun, hu, ht], htu.trans hview⟩
  intro as s hbusy hsoft
  obtain ⟨t, ht, hview⟩ := view as s hbusy hsoft
  refine ⟨t, ht, latch_of_commandView hview, ?_⟩
  rw [commandOutcome_coreTurn t, hview, ← commandOutcome_coreTurn s]

end Sys2Proof.Machine

namespace Sys2Proof.Machine

/-! ### The bits of register words (10_state.md R24, R27, R28) -/

theorem bitWord_getLsbD {i k : Nat} (hk : k < 32) (b : Bool) : (bitWord i b).getLsbD k = (decide (k = i) && b) := by
  have hbit : (BitVec.ofNat 32 b.toNat).getLsbD (k - i) = (decide (k - i = 0) && b) := by
    cases b with
    | false => simp
    | true =>
      rw [Bool.toNat_true, BitVec.getLsbD_ofNat, Bool.eq_iff_iff]
      simp [Nat.testBit_one_eq_true_iff_self_eq_zero, show k - i < 32 by omega]
  rw [bitWord, BitVec.getLsbD_shiftLeft, hbit, ← Bool.and_assoc, Bool.eq_iff_iff]
  simp only [Bool.and_eq_true, Bool.not_eq_true', decide_eq_true_eq, decide_eq_false_iff_not]
  constructor
  · rintro ⟨h, hb⟩
    exact ⟨by omega, hb⟩
  · rintro ⟨rfl, hb⟩
    exact ⟨by omega, hb⟩

theorem bitWord_eq_regField (i : Nat) (b : Bool) : bitWord i b = regField i (BitVec.ofBool b) := by
  cases b <;> rfl

theorem regField_getLsbD_of_lt {n lo k : Nat} (v : BitVec n) (h : k < lo) : (regField lo v).getLsbD k = false := by
  rw [regField, BitVec.getLsbD_shiftLeft, decide_eq_true h]
  simp

/-- A flag put above the 1 bits of a word adds up with it. -/
theorem or_bitWord_toNat {lo : Nat} {w : Word} (hw : w.toNat < 2 ^ lo) (b : Bool) (h : lo < 32) :
    (w ||| bitWord lo b).toNat = w.toNat + 2 ^ lo * b.toNat := by
  rw [bitWord_eq_regField, or_regField_toNat hw _ h, BitVec.toNat_ofBool]

/-- The fields of STATUS stand side by side (10_state.md R27). -/
theorem State.statusWord_toNat (s : State) :
    s.statusWord.toNat = s.latch.isSome.toNat + 2 * s.done.toNat + 4 * s.err.toNat + 8 * s.accErr.toNat +
      256 * s.phase.code.toNat + 4096 * s.genv.toNat + 8192 * s.rsv.toNat := by
  have hle (b : Bool) : b.toNat ≤ 1 := Bool.toNat_le b
  have hcode : s.phase.code.toNat < 8 := BitVec.isLt _
  have hbusy : (bitWord 0 s.busy).toNat = s.latch.isSome.toNat := by
    rw [bitWord_eq_regField, regField_zero_toNat _ (by decide), BitVec.toNat_ofBool, State.busy]
  have := hle s.latch.isSome
  have := hle s.done
  have := hle s.err
  have := hle s.accErr
  have := hle s.genv
  have hdone := or_bitWord_toNat (lo := 1) (w := bitWord 0 s.busy) (by omega) s.done (by decide)
  have herr := or_bitWord_toNat (lo := 2) (w := bitWord 0 s.busy ||| bitWord 1 s.done) (by omega) s.err (by decide)
  have hacc := or_bitWord_toNat (lo := 3) (w := bitWord 0 s.busy ||| bitWord 1 s.done ||| bitWord 2 s.err) (by omega)
    s.accErr (by decide)
  have hphase := or_regField_toNat (lo := 8)
    (w := bitWord 0 s.busy ||| bitWord 1 s.done ||| bitWord 2 s.err ||| bitWord 3 s.accErr) (by omega) s.phase.code (by decide)
  have hgenv := or_bitWord_toNat (lo := 12)
    (w := bitWord 0 s.busy ||| bitWord 1 s.done ||| bitWord 2 s.err ||| bitWord 3 s.accErr ||| regField 8 s.phase.code)
    (by omega) s.genv (by decide)
  have hrsv := or_bitWord_toNat (lo := 13)
    (w := bitWord 0 s.busy ||| bitWord 1 s.done ||| bitWord 2 s.err ||| bitWord 3 s.accErr ||| regField 8 s.phase.code |||
      bitWord 12 s.genv) (by omega) s.rsv (by decide)
  rw [State.statusWord]
  omega

/-- The fields of IRQEN stand side by side (10_state.md R28). -/
theorem State.irqenWord_toNat (s : State) :
    s.irqenWord.toNat = 2 * s.irqen.doneIe.toNat + 4 * s.irqen.errIe.toNat + 8 * s.irqen.accIe.toNat := by
  have hle (b : Bool) : b.toNat ≤ 1 := Bool.toNat_le b
  have := hle s.irqen.doneIe
  have := hle s.irqen.errIe
  have hdone : (bitWord 1 s.irqen.doneIe).toNat = 2 * s.irqen.doneIe.toNat := by
    rw [bitWord_eq_regField, regField_toNat _ (by decide), BitVec.toNat_ofBool]
    rfl
  have herr := or_bitWord_toNat (lo := 2) (w := bitWord 1 s.irqen.doneIe) (by omega) s.irqen.errIe (by decide)
  have hacc := or_bitWord_toNat (lo := 3) (w := bitWord 1 s.irqen.doneIe ||| bitWord 2 s.irqen.errIe) (by omega)
    s.irqen.accIe (by decide)
  rw [State.irqenWord]
  omega

/-- The bits 1 to 3 of STATUS are the flags; no other bit of these is set by another field. -/
theorem State.statusWord_getLsbD {s : State} {k : Nat} (h1 : 1 ≤ k) (h3 : k ≤ 3) :
    s.statusWord.getLsbD k = (decide (k = 1) && s.done || decide (k = 2) && s.err || decide (k = 3) && s.accErr) := by
  have hk : k < 32 := by omega
  simp only [State.statusWord, BitVec.getLsbD_or, bitWord_getLsbD hk, regField_getLsbD_of_lt s.phase.code (show k < 8 by omega)]
  simp [show k ≠ 0 by omega, show k ≠ 12 by omega, show k ≠ 13 by omega]

theorem State.irqenWord_getLsbD {s : State} {k : Nat} (hk : k < 32) :
    s.irqenWord.getLsbD k =
      (decide (k = 1) && s.irqen.doneIe || decide (k = 2) && s.irqen.errIe || decide (k = 3) && s.irqen.accIe) := by
  simp only [State.irqenWord, BitVec.getLsbD_or, bitWord_getLsbD hk]

theorem flagMask_getLsbD {k : Nat} (hk : k < 32) : (0x0000000E : Word).getLsbD k = decide (1 ≤ k ∧ k ≤ 3) := by
  revert k
  decide

/-- A word with its bits read through the flag mask is not 0 when one of the bits 1 to 3 is set. -/
theorem and_flagMask_ne_zero_iff (w : Word) :
    w &&& 0x0000000E ≠ 0 ↔ w.getLsbD 1 = true ∨ w.getLsbD 2 = true ∨ w.getLsbD 3 = true := by
  have hzeros (k : Nat) : (0 : Word).getLsbD k = false := BitVec.getLsbD_zero
  refine ⟨fun h => ?_, fun h hzero => ?_⟩
  · by_contra hclear
    simp only [not_or, Bool.not_eq_true] at hclear
    obtain ⟨h1, h2, h3⟩ := hclear
    refine h (BitVec.eq_of_getLsbD_eq fun k hk => ?_)
    rw [BitVec.getLsbD_and, flagMask_getLsbD hk, hzeros]
    by_cases hin : 1 ≤ k ∧ k ≤ 3
    · obtain rfl | rfl | rfl : k = 1 ∨ k = 2 ∨ k = 3 := by omega
      · rw [h1, Bool.false_and]
      · rw [h2, Bool.false_and]
      · rw [h3, Bool.false_and]
    · rw [decide_eq_false hin, Bool.and_false]
  · have hbit (k : Nat) (hin : 1 ≤ k ∧ k ≤ 3) : w.getLsbD k = false := by
      have hk := congrArg (BitVec.getLsbD · k) hzero
      simpa only [BitVec.getLsbD_and, flagMask_getLsbD (show k < 32 by omega), decide_eq_true hin, Bool.and_true,
        hzeros] using hk
    simp only [hbit 1 (by decide), hbit 2 (by decide), hbit 3 (by decide), Bool.false_eq_true, or_self] at h

/-- Settles O52: STATUS and IRQEN have each flag and its enable at the same bit. -/
theorem interruptLineIsTheGatedOr : Obligations.InterruptLineIsTheGatedOr := by
  unfold Obligations.InterruptLineIsTheGatedOr
  intro s
  simp only [readCsr, and_flagMask_ne_zero_iff, BitVec.getLsbD_and]
  rw [State.statusWord_getLsbD (by decide) (by decide), State.statusWord_getLsbD (by decide) (by decide),
    State.statusWord_getLsbD (by decide) (by decide), State.irqenWord_getLsbD (by decide), State.irqenWord_getLsbD (by decide),
    State.irqenWord_getLsbD (by decide)]
  simp [State.irq, or_assoc]

/-! ### Reads (20_memory.md R77, R78) -/

/-- A register stands at its own aligned offset (10_state.md R23). -/
theorem csrAt?_offset (r : Csr) : r.offset.toNat % 4 = 0 ∧ csrAt? r.offset.toNat = some r := by
  cases r with
  | pen k => revert k; decide
  | selp j => revert j; decide
  | _ => decide

/-- An aligned 32-bit read of a register but BUF_DATA is answered at any time (20_memory.md R77). -/
theorem access_read {r : Csr} (hr : r ≠ .bufData) (data : Word) (s : State) :
    access { kind := .read, width := 32, offset := r.offset, data := data } s = .next { s with busData := readCsr r s } := by
  obtain ⟨halign, hreg⟩ := csrAt?_offset r
  simp [access, halign, hreg, allowedWhileBusy, hr]

theorem regField_zero {n : Nat} (v : BitVec n) : regField 0 v = v.setWidth 32 :=
  BitVec.shiftLeft_zero _

theorem eq_ofNat_of_toNat_eq {w : Word} {n : Nat} (h : w.toNat = n) : w = BitVec.ofNat 32 n := by
  rw [← h, BitVec.ofNat_toNat, BitVec.setWidth_eq]

/-- The map of the registers says what each one reads. -/
theorem readCsr_of_mem_registerWords {r : Csr} {offset : BitVec 8} {word : Word} {s : State}
    (h : (r, offset, word) ∈ registerWords s) : r ≠ .bufData ∧ r.offset = offset ∧ readCsr r s = word := by
  have hone {n : Nat} (v : BitVec n) := regField_zero v
  have hstatus := eq_ofNat_of_toNat_eq s.statusWord_toNat
  have hirqen := eq_ofNat_of_toNat_eq s.irqenWord_toNat
  have hblocks := eq_ofNat_of_toNat_eq s.params.blocksWord_toNat
  have hentries : ∀ x ∈ registerWords s, x.1 ≠ .bufData ∧ x.1.offset = x.2.1 ∧ readCsr x.1 s = x.2.2 := by
    simp only [registerWords, registerWordsControl, registerWordsSymbol, registerWordsScores, List.forall_mem_append,
      List.forall_mem_cons]
    simp only [readCsr, hone, hstatus, hirqen, hblocks]
    simp [Csr.offset, idWord]
  exact hentries _ h

/-- Settles O49. -/
theorem registerReadsHaveNoSideEffect : Obligations.RegisterReadsHaveNoSideEffect := by
  unfold Obligations.RegisterReadsHaveNoSideEffect
  intro r offset word s data h
  obtain ⟨hr, rfl, rfl⟩ := readCsr_of_mem_registerWords h
  exact ⟨rfl, rfl, access_read hr data s⟩

/-! ### Writes (20_memory.md R76, R77) -/

/-- An aligned 32-bit write of a register the host may write but BUF_DATA is accepted while the machine is idle, and while
a command is pending for CTRL, STATUS and IRQEN (20_memory.md R77). -/
theorem access_write {r : Csr} (hr : r ≠ .bufData) (hw : r.readOnly = false) {s : State}
    (hbusy : s.busy = false ∨ allowedWhileBusy .write r = true) (data : Word) :
    access { kind := .write, width := 32, offset := r.offset, data := data } s = .next (writeCsr r data s) := by
  obtain ⟨halign, hreg⟩ := csrAt?_offset r
  have haccept : ¬ (s.busy = true ∧ ¬ allowedWhileBusy .write r = true) := by
    rintro ⟨hb, hna⟩
    obtain h | h := hbusy
    · exact absurd hb (by simp [h])
    · exact hna h
  simp only [access, halign, hreg, if_neg haccept, hw]
  simp [hr]

/-- A word narrowed to a register's field and read back is the word under the field's mask (10_state.md R24). -/
theorem regField_setWidth (n : Nat) (w : Word) :
    regField 0 (w.setWidth n) = w &&& (BitVec.allOnes n).setWidth 32 := by
  refine BitVec.eq_of_getLsbD_eq fun k hk => ?_
  rw [regField_zero, BitVec.getLsbD_setWidth, BitVec.getLsbD_setWidth, BitVec.getLsbD_and, BitVec.getLsbD_setWidth,
    BitVec.getLsbD_allOnes, decide_eq_true hk, Bool.true_and, Bool.true_and, Bool.and_comm]

theorem irqenWord_writeIrqen (w : Word) (s : State) : (s.writeIrqen w).irqenWord = w &&& 0x0000000E := by
  refine BitVec.eq_of_getLsbD_eq fun k hk => ?_
  rw [State.irqenWord_getLsbD hk, BitVec.getLsbD_and, flagMask_getLsbD hk, State.writeIrqen_irqen]
  by_cases hin : 1 ≤ k ∧ k ≤ 3
  · obtain rfl | rfl | rfl : k = 1 ∨ k = 2 ∨ k = 3 := by omega
    all_goals simp
  · simp [hin, show k ≠ 1 by omega, show k ≠ 2 by omega, show k ≠ 3 by omega]

/-- Settles O50, register by register: the write takes the named fields and leaves every other register. -/
theorem hostRegistersReadBackMasked : Obligations.HostRegistersReadBackMasked := by
  unfold Obligations.HostRegistersReadBackMasked
  intro r mask w s hmask hbusy
  have hwrite (hd : r ≠ .bufData) (hro : r.readOnly = false) (hallowed : r = .irqen → allowedWhileBusy .write r = true) :=
    access_write hd hro (s := s) (hbusy.symm.imp_right hallowed) w
  simp only [List.mem_cons, Prod.mk.injEq, List.not_mem_nil, or_false] at hmask
  obtain ⟨rfl, rfl⟩ | ⟨rfl, rfl⟩ | ⟨rfl, rfl⟩ | ⟨rfl, rfl⟩ := hmask
  · refine ⟨_, hwrite (by decide) rfl fun _ => rfl, irqenWord_writeIrqen w s, rfl, fun r' hr' => ?_⟩
    cases r' with
    | irqen => exact absurd rfl hr'
    | _ => rfl
  · refine ⟨_, hwrite (by decide) rfl (by decide), regField_setWidth 15 w, rfl, fun r' hr' => ?_⟩
    cases r' with
    | bitlen => exact absurd rfl hr'
    | _ => rfl
  · refine ⟨_, hwrite (by decide) rfl (by decide), regField_setWidth 4 w, rfl, fun r' hr' => ?_⟩
    cases r' with
    | bufSel => exact absurd rfl hr'
    | _ => rfl
  · refine ⟨_, hwrite (by decide) rfl (by decide), regField_setWidth 16 w, rfl, fun r' hr' => ?_⟩
    cases r' with
    | bufAddr => exact absurd rfl hr'
    | _ => rfl

/-- A write of STATUS clears the flags whose bits are 1 (10_state.md R27). -/
theorem statusWord_writeStatus (w : Word) (s : State) :
    (s.writeStatus w).statusWord = s.statusWord &&& ~~~ (w &&& 0x0000000E) := by
  refine BitVec.eq_of_getLsbD_eq fun k hk => ?_
  rw [BitVec.getLsbD_and, BitVec.getLsbD_not, BitVec.getLsbD_and, flagMask_getLsbD hk]
  by_cases hin : 1 ≤ k ∧ k ≤ 3
  · rw [State.statusWord_getLsbD hin.1 hin.2, State.statusWord_getLsbD hin.1 hin.2]
    obtain rfl | rfl | rfl : k = 1 ∨ k = 2 ∨ k = 3 := by omega
    all_goals simp
  · simp only [State.statusWord, BitVec.getLsbD_or, bitWord_getLsbD hk]
    simp [hin, hk, show k ≠ 1 by omega, show k ≠ 2 by omega, show k ≠ 3 by omega, State.busy]

/-- Settles O51. -/
theorem statusReadsAndClearsAsStated : Obligations.StatusReadsAndClearsAsStated := by
  unfold Obligations.StatusReadsAndClearsAsStated
  intro w s
  exact ⟨s.statusWord_toNat, _, access_write (r := .status) (by decide) rfl (.inr rfl) w, rfl, statusWord_writeStatus w s⟩

/-! ### Rejected accesses (20_memory.md R74 to R77, 60_exceptions.md R290, R291) -/

theorem rejectAccess_eq (e : AccError) (k : AccessKind) (s : State) :
    rejectAccess e k s =
      { s with acccode := e.code, accErr := true, busData := if k = .read then 0 else s.busData } := by
  cases k <;> rfl

/-- The aligned offsets where a register stands (10_state.md R23). -/
theorem csrAt?_eq_none_iff {o : BitVec 8} (h : o.toNat % 4 = 0) :
    csrAt? o.toNat = none ↔ ¬ (o.toNat ≤ 0x90 ∧ o.toNat ≠ 0x5C) := by
  revert o
  decide

/-- What may be accessed, register by register: at any time, and while a command is pending (20_memory.md R76, R77). -/
theorem rejected_of_offset {o : BitVec 8} (h : o.toNat % 4 = 0) {r : Csr} (hr : csrAt? o.toNat = some r) :
    (o.toNat = 0x58 → allowedWhileBusy .read r = false) ∧
    (o.toNat ∉ [0x04, 0x08, 0x0C] → allowedWhileBusy .write r = false) ∧
    (o.toNat ∉ [0x04, 0x08, 0x0C, 0x10, 0x1C, 0x50, 0x54, 0x58] → r.readOnly = true) := by
  have table : ∀ o : BitVec 8, o.toNat % 4 = 0 → ∀ r ∈ csrAt? o.toNat,
      (o.toNat = 0x58 → allowedWhileBusy .read r = false) ∧
      (o.toNat ∉ [0x04, 0x08, 0x0C] → allowedWhileBusy .write r = false) ∧
      (o.toNat ∉ [0x04, 0x08, 0x0C, 0x10, 0x1C, 0x50, 0x54, 0x58] → r.readOnly = true) := by decide
  exact table o h r hr

theorem access_of_unmapped {a : Access} (hshape : ¬ (a.width ≠ 32 ∨ a.offset.toNat % 4 ≠ 0))
    (hreg : csrAt? a.offset.toNat = none) (s : State) : access a s = .next (rejectAccess .unmapped a.kind s) := by
  simp only [access, if_neg hshape, hreg]

theorem access_of_busy {a : Access} {r : Csr} {s : State} (hshape : ¬ (a.width ≠ 32 ∨ a.offset.toNat % 4 ≠ 0))
    (hreg : csrAt? a.offset.toNat = some r) (hbusy : s.busy = true) (hallowed : allowedWhileBusy a.kind r = false) :
    access a s = .next (rejectAccess .busy a.kind s) := by
  simp only [access, if_neg hshape, hreg, if_pos (show s.busy = true ∧ ¬ allowedWhileBusy a.kind r = true by simp [*])]

theorem access_of_readOnly {a : Access} {r : Csr} {s : State} (hshape : ¬ (a.width ≠ 32 ∨ a.offset.toNat % 4 ≠ 0))
    (hreg : csrAt? a.offset.toNat = some r) (hidle : s.busy = false) (hkind : a.kind = .write) (hro : r.readOnly = true) :
    access a s = .next (rejectAccess .readOnly a.kind s) := by
  simp only [access, if_neg hshape, hreg, if_neg (show ¬ (s.busy = true ∧ ¬ allowedWhileBusy a.kind r = true) by simp [*]),
    if_pos (And.intro hkind hro)]

/-- Settles O48: the checks exclude each other in the order of R291. -/
theorem rejectedAccessesReportInOrder : Obligations.RejectedAccessesReportInOrder := by
  unfold Obligations.RejectedAccessesReportInOrder
  rintro a s _ aligned mapped _ rfl haligned hmapped rfl
  have hreg (h : aligned) (hm : mapped) : ∃ r, csrAt? a.offset.toNat = some r := by
    refine Option.ne_none_iff_exists'.mp fun hnone => ?_
    exact (csrAt?_eq_none_iff (haligned.mp h).2).mp hnone (hmapped.mp hm)
  have hshape : aligned ↔ ¬ (a.width ≠ 32 ∨ a.offset.toNat % 4 ≠ 0) := by
    rw [haligned]
    tauto
  refine ⟨fun h => ?_, fun h hm => ?_, fun h hm hbusy hkind => ?_, fun h hm hidle hkind hoff => ?_⟩
  · rw [access_of_badShape (by tauto), rejectAccess_eq]
    rfl
  · rw [access_of_unmapped (hshape.mp h) ((csrAt?_eq_none_iff (haligned.mp h).2).mpr fun h' => hm (hmapped.mpr h')),
      rejectAccess_eq]
    rfl
  · obtain ⟨r, hr⟩ := hreg h hm
    obtain ⟨hread, hwrite, -⟩ := rejected_of_offset (haligned.mp h).2 hr
    have hallowed : allowedWhileBusy a.kind r = false := by
      obtain ⟨hk, hoff⟩ | ⟨hk, hoff⟩ := hkind
      · exact hk ▸ hread hoff
      · exact hk ▸ hwrite hoff
    rw [access_of_busy (hshape.mp h) hr hbusy hallowed, rejectAccess_eq]
    rfl
  · obtain ⟨r, hr⟩ := hreg h hm
    obtain ⟨-, -, hro⟩ := rejected_of_offset (haligned.mp h).2 hr
    rw [access_of_readOnly (hshape.mp h) hr hidle hkind (hro hoff), rejectAccess_eq]
    rfl

/-! ### The buffer port (20_memory.md R79 to R82) -/

/-- An idle machine's 32-bit access of BUF_DATA is a port access. -/
theorem access_bufData (kind : AccessKind) (w : Word) {s : State} (h : s.busy = false) :
    access { kind := kind, width := 32, offset := 0x58, data := w } s = accessPort kind w s := by
  have hreg : csrAt? 0x58 = some .bufData := by decide
  simp [access, hreg, h, Csr.readOnly]

theorem Buf.ofSel?_sel (b : Buf) : Buf.ofSel? b.sel = some b := by
  cases b <;> rfl

/-- The selectors 8 to 15 are reserved, the others name a buffer (10_state.md R51). -/
theorem portCheck_of_reserved {s : State} (h : 8 ≤ s.bufSel.toNat) (kind : AccessKind) :
    portCheck kind s = .error .bufSel := by
  have hnone : Buf.ofSel? s.bufSel.toNat = none := by
    generalize s.bufSel.toNat = n at h
    unfold Buf.ofSel?
    split
    case h_9 => rfl
    all_goals omega
  simp only [portCheck, hnone]

/-- PortCheck on the buffer a selector names (20_memory.md R81). -/
theorem portCheck_of_sel {s : State} {b : Buf} (h : b.sel = s.bufSel.toNat) (kind : AccessKind) :
    portCheck kind s =
      if kind = .write ∧ ¬ b.hostWritable then .error .readOnly
      else if ¬ s.bufValid b then .error .bufInvalid
      else if s.bufExtent b ≤ s.bufAddr.toNat then .error .bufRange
      else .ok b := by
  simp only [portCheck, ← h, Buf.ofSel?_sel]

/-- The inputs can always be read (10_state.md R52). -/
theorem bufValid_of_hostWritable {b : Buf} (h : b = .bits ∨ b = .rsin) (s : State) : s.bufValid b = true := by
  obtain rfl | rfl := h <;> rfl

theorem accessPort_of_error {kind : AccessKind} {s : State} {e : AccError} (h : portCheck kind s = .error e) (w : Word) :
    accessPort kind w s = .next { s with
      acccode := e.code, accErr := true, bufAddr := s.bufAddr + 1, busData := if kind = .read then 0 else s.busData } := by
  simp only [accessPort, h, rejectAccess_eq]
  rfl

theorem accessPort_read_of_ok {s : State} {b : Buf} (h : portCheck .read s = .ok b) (hcap : s.bufAddr.toNat < b.capacity)
    (w : Word) : accessPort .read w s =
      .next { s with busData := (s.readByte b s.bufAddr.toNat).setWidth 32, bufAddr := s.bufAddr + 1 } := by
  simp only [accessPort, h, if_neg (Nat.not_le.mpr hcap), regField_zero]
  rfl

theorem accessPort_write_of_ok {s : State} {b : Buf} (h : portCheck .write s = .ok b) (hcap : s.bufAddr.toNat < b.capacity)
    (w : Word) : accessPort .write w s = .next (s.writeByte b s.bufAddr.toNat (w.setWidth 8)).advance := by
  simp only [accessPort, h, if_neg (Nat.not_le.mpr hcap)]

/-- A byte PortCheck lets through lies in its buffer's extent (20_memory.md R81). -/
theorem lt_bufExtent_of_portCheck {kind : AccessKind} {s : State} {b : Buf} (h : portCheck kind s = .ok b) :
    s.bufAddr.toNat < s.bufExtent b := by
  unfold portCheck at h
  split at h
  · cases h
  · split_ifs at h with _ _ hrange
    cases h
    exact Nat.not_le.mp hrange

/-- The port stops only at a byte that does not exist (log entry 8), and BUF_ADDR always advances (20_memory.md R80). -/
theorem exists_accessPort {kind : AccessKind} {s : State} (hext : ∀ b : Buf, s.bufExtent b ≤ b.capacity) (w : Word) :
    ∃ t, accessPort kind w s = .next t ∧ t.bufAddr = s.bufAddr + 1 := by
  cases h : portCheck kind s with
  | error e => exact ⟨_, accessPort_of_error h w, rfl⟩
  | ok b =>
    have hcap : s.bufAddr.toNat < b.capacity := (lt_bufExtent_of_portCheck h).trans_le (hext b)
    cases kind with
    | read => exact ⟨_, accessPort_read_of_ok h hcap w, rfl⟩
    | write => exact ⟨_, accessPort_write_of_ok h hcap w, rfl⟩

/-- Settles O53: PortCheck's clauses, read in their order. -/
theorem bufferPortFollowsPortCheck : Obligations.BufferPortFollowsPortCheck := by
  unfold Obligations.BufferPortFollowsPortCheck
  rintro kind w s _ _ hidle hext rfl rfl
  obtain ⟨t, ht, haddr⟩ := exists_accessPort (kind := kind) hext w
  have eq_of {u : State} (hu : accessPort kind w s = .next u) : t = u := Host.Outcome.next.inj (ht.symm.trans hu)
  refine ⟨t, (access_bufData kind w hidle).trans ht, haddr, fun hres => ?_, fun b hsel => ?_⟩
  · exact eq_of (accessPort_of_error (portCheck_of_reserved hres kind) w)
  have hcheck := portCheck_of_sel hsel kind
  have hwritable (h : kind = .read ∨ b = .bits ∨ b = .rsin) : ¬ (kind = .write ∧ ¬ b.hostWritable = true) := by
    rw [Buf.hostWritable_iff]
    rintro ⟨rfl, hb⟩
    exact h.elim nofun hb
  refine ⟨fun hk hbits hrsin => ?_, fun hok hinvalid => ?_, fun hok hvalid hrange => ?_, fun hk hvalid hrange => ?_,
    fun hk hb hrange => ?_⟩
  · have hro : kind = .write ∧ ¬ b.hostWritable = true := ⟨hk, by rw [Buf.hostWritable_iff]; tauto⟩
    exact eq_of (accessPort_of_error (e := .readOnly) (by rw [hcheck, if_pos hro]) w)
  · exact eq_of (accessPort_of_error (e := .bufInvalid) (by rw [hcheck, if_neg (hwritable hok), if_pos (by simp [hinvalid])]) w)
  · exact eq_of (accessPort_of_error (e := .bufRange)
      (by rw [hcheck, if_neg (hwritable hok), if_neg (by simp [hvalid]), if_pos hrange]) w)
  · subst hk
    have hpass : portCheck .read s = .ok b := by
      rw [hcheck, if_neg (hwritable (.inl rfl)), if_neg (by simp [hvalid]), if_neg (Nat.not_le.mpr hrange)]
    exact eq_of (accessPort_read_of_ok hpass (hrange.trans_le (hext b)) w)
  · subst hk
    have hpass : portCheck .write s = .ok b := by
      rw [hcheck, if_neg (hwritable (.inr hb)), if_neg (by simp [bufValid_of_hostWritable hb]),
        if_neg (Nat.not_le.mpr hrange)]
    obtain rfl := eq_of (accessPort_write_of_ok hpass (hrange.trans_le (hext b)) w)
    exact ⟨rfl, State.readByte_writeByte_same b _ _ s, fun j hj => State.readByte_writeByte_other _ s (.inr hj),
      sameBytes_writeByte b _ _ s⟩

/-! ### Hard reset (10_state.md R63, 70_reset_and_hazards.md R320) -/

/-- No register tells a hard reset from the state it starts in. -/
theorem readCsr_hardReset (r : Csr) (s : State) : readCsr r (hardReset s) = readCsr r State.reset := by
  cases r <;> rfl

theorem bufValid_hardReset (b : Buf) (s : State) : (hardReset s).bufValid b = State.reset.bufValid b := by
  cases b <;> rfl

/-- Settles O54. -/
theorem hardResetClearsEveryRegister : Obligations.HardResetClearsEveryRegister := by
  unfold Obligations.HardResetClearsEveryRegister
  intro s rest h
  refine ⟨_, step_of_agenda_cons h, rfl, fun r hr => (readCsr_hardReset r _).trans (readCsr_reset hr), rfl, rfl, rfl,
    fun b => ?_, fun i => rfl, fun i => rfl, rfl⟩
  rw [bufValid_hardReset, bufValid_reset_iff]

/-! ### The assembler's pseudo-instructions (30_encoding.md R105 to R109) -/

theorem commandOp?_of_wf {i : Instr} (h : i.wf = true) : commandOp? i = some (.write 0x10 (encode i).toNat) :=
  if_pos h

/-- Commands that fit their words are each written to CMD and waited for (R106). -/
theorem commandsWaiting?_of_wf {is : List Instr} (h : ∀ i ∈ is, i.wf = true) :
    commandsWaiting? is = some (is.flatMap fun i => [.write 0x10 (encode i).toNat, .wait]) := by
  induction is with
  | nil => rfl
  | cons i rest ih =>
    obtain ⟨hi, hrest⟩ := List.forall_mem_cons.mp h
    simp only [commandsWaiting?, commandOp?_of_wf hi, ih hrest]
    rfl

/-- Settles O60. -/
theorem pseudoInstructionsExpandAsStated : Obligations.PseudoInstructionsExpandAsStated := by
  unfold Obligations.PseudoInstructionsExpandAsStated
  refine ⟨fun v e hv he => commandsWaiting?_of_wf ?_, rfl, rfl, fun i hi => ?_⟩
  · simp [Instr.wf, hv, he]
  · simp only [Statement.expand?, commandOp?, hi, Bool.false_eq_true, if_false]

end Sys2Proof.Machine

namespace Sys2Proof.Machine

/-! ### The RS commands (41_rs.md R141, R145, R146) -/

/-- Settles O20. -/
theorem generatorIsMonicWithItsRoots : Obligations.GeneratorIsMonicWithItsRoots := by
  unfold Obligations.GeneratorIsMonicWithItsRoots
  refine fun n _ => ⟨length_genPoly n, ?_, fun i => polyEval_genPoly⟩
  rw [genPoly_eq_one_cons]
  rfl

/-- A command that fails with an error other than CapacityMismatch only reports it. -/
theorem exec_eq_of_fails {i : Instr} {s : State} {e : CmdError} (h : Fails i s e) (he : e ≠ .capacityMismatch) :
    exec i s = .next { s with errcode := e.code, done := true, err := true, latch := none } :=
  (exec_of_fails h).trans (raiseCmdError_eq he s)

/-- A command that succeeds reports code 0 with DONE and leaves ERR as it was (45_control.md R262). -/
theorem exists_exec_of_effect {i : Instr} {s u : State} (h : Effect i s u) :
    ∃ t, exec i s = .next t ∧ t = { u with errcode := 0, done := true, latch := none } :=
  ⟨_, (exec_of_effect h).trans (finish_eq u), rfl⟩

/-- The bytes of a loaded buffer: those below the load's length are the loaded ones. -/
theorem readByte_of_lt_load {s t : State} {b : Buf} {bytes : List Byte} (hb : t.bufs.get b = Memory.load bytes (s.bufs.get b))
    (hp : t.powerOns = s.powerOns) (hr : t.resets = s.resets) {i : Nat} (hi : i < bytes.length) :
    t.readByte b i = bytes.getD i 0 :=
  (State.readByte_load_same hb hp hr i).trans (if_pos hi)

/-- The bytes of a loaded buffer from the load's length on are what they were (log entry 10). -/
theorem readByte_of_load_le {s t : State} {b : Buf} {bytes : List Byte} (hb : t.bufs.get b = Memory.load bytes (s.bufs.get b))
    (hp : t.powerOns = s.powerOns) (hr : t.resets = s.resets) {i : Nat} (hi : bytes.length ≤ i) :
    t.readByte b i = s.readByte b i :=
  (State.readByte_load_same hb hp hr i).trans (if_neg (Nat.not_lt.mpr hi))

/-- Settles O18: one load of GEN, by the n + 1 coefficients of the generator. -/
theorem rsGenLoadsTheGenerator : Obligations.RsGenLoadsTheGenerator := by
  unfold Obligations.RsGenLoadsTheGenerator
  intro n s
  refine ⟨fun hn => ?_, fun hn => exec_eq_of_fails (.genDegree hn) (by decide), fun w hop => ?_, rfl, by decide, by decide,
    by decide⟩
  · obtain ⟨t, hexec, ht⟩ := exists_exec_of_effect (Effect.rsGen (s := s) (n := n) hn)
    have hgen : t.bufs.get .gen = Memory.load (genPoly n) (s.bufs.get .gen) := by rw [ht]; rfl
    have hlen := length_genPoly n
    refine ⟨t, hexec, by rw [ht], fun k hk => ?_, fun k hk => ?_, exec_sameBytes hexec⟩
    · exact readByte_of_lt_load hgen (by rw [ht]) (by rw [ht]) (by omega)
    · exact readByte_of_load_le hgen (by rw [ht]) (by rw [ht]) (by omega)
  · exact complete_of_reservedFrom (lo := 16) (.tail _ (.tail _ (.tail _ (.tail _ (.tail _ (.head _)))))) (by decide) rfl rfl
      hop.symm s

/-- A block read is the list of the bytes read one by one. -/
theorem readBlock_eq_map (b : Buf) (n : Nat) (s : State) :
    s.readBlock b n = (List.range n).map fun i => s.readByte b i := by
  refine List.ext_getElem? fun k => ?_
  rw [State.readBlock_getElem?, List.getElem?_map]
  by_cases hk : k < n <;> simp [hk]

/-- Settles O19: a load of RSOUT by the n remainder bytes, and one of GEN. -/
theorem rsDivWritesTheRemainder : Obligations.RsDivWritesTheRemainder := by
  unfold Obligations.RsDivWritesTheRemainder
  intro n len s
  refine ⟨fun hn h1 h256 => ?_, fun hn => exec_eq_of_fails (.divDegree hn) (by decide),
    fun hn hlen => exec_eq_of_fails (.divLength hn hlen) (by decide), fun w hop => ?_⟩
  · obtain ⟨t, hexec, ht⟩ := exists_exec_of_effect (Effect.rsDiv (s := s) (n := n) hn h1 h256)
    have hout : t.bufs.get .rsout = Memory.load (rsRem (s.readBlock .rsin len) n) (s.bufs.get .rsout) := by rw [ht]; rfl
    have hgen : t.bufs.get .gen = Memory.load (genPoly n) (s.bufs.get .gen) := by rw [ht]; rfl
    have hrem := length_rsRem (s.readBlock .rsin len) n
    have hlen := length_genPoly n
    refine ⟨t, hexec, by rw [ht], fun k hk => ?_, fun k hk => ?_, fun k hk => ?_, fun k hk => ?_, exec_sameBytes hexec⟩
    · rw [← readBlock_eq_map]
      exact readByte_of_lt_load hout (by rw [ht]) (by rw [ht]) (by omega)
    · exact readByte_of_load_le hout (by rw [ht]) (by rw [ht]) (by omega)
    · exact readByte_of_lt_load hgen (by rw [ht]) (by rw [ht]) (by omega)
    · exact readByte_of_load_le hgen (by rw [ht]) (by rw [ht]) (by omega)
  · exact complete_of_reservedFrom (lo := 25) (.tail _ (.tail _ (.tail _ (.tail _ (.tail _ (.tail _ (.head _)))))))
      (by decide) rfl rfl hop.symm s

end Sys2Proof.Machine

namespace Sys2Proof.Machine

/-! ### Lists of pieces of one length -/

/-- Pieces of one length stand at multiples of that length. -/
theorem getElem?_flatMap_of_length {α β : Type} {l : List α} {f : α → List β} {w : Nat} (h : ∀ x ∈ l, (f x).length = w)
    (i : Nat) {j : Nat} (hj : j < w) : (l.flatMap f)[i * w + j]? = l[i]?.bind fun x => (f x)[j]? := by
  induction l generalizing i with
  | nil => simp
  | cons x rest ih =>
    obtain ⟨hx, hrest⟩ := List.forall_mem_cons.mp h
    rw [List.flatMap_cons]
    cases i with
    | zero =>
      rw [List.getElem?_append_left (by omega), Nat.zero_mul, Nat.zero_add]
      rfl
    | succ i =>
      have hshift : (i + 1) * w + j = i * w + j + w := by rw [Nat.succ_mul]; omega
      rw [hshift, ← hx, List.getElem?_append_right (by omega), Nat.add_sub_cancel, hx, ih hrest]
      rfl

theorem length_flatMap_of_length {α β : Type} {l : List α} {f : α → List β} {w : Nat} (h : ∀ x ∈ l, (f x).length = w) :
    (l.flatMap f).length = l.length * w := by
  rw [List.length_flatMap, List.map_congr_left h, List.map_const', List.sum_replicate, smul_eq_mul]

/-- A piece of a flattened list, cut out of it. -/
theorem take_drop_flatten {α : Type} {l : List (List α)} {w : Nat} (h : ∀ x ∈ l, x.length = w) {i : Nat} {x : List α}
    (hx : l[i]? = some x) : (l.flatten.drop (i * w)).take w = x := by
  have hlen : x.length = w := h x (List.mem_of_getElem? hx)
  refine List.ext_getElem? fun j => ?_
  rw [List.getElem?_take, List.getElem?_drop]
  split
  · next hj =>
    rw [← List.flatMap_id, getElem?_flatMap_of_length (f := id) h i hj, hx]
    rfl
  · next hj => rw [List.getElem?_eq_none (by omega)]

/-! ### The blocks of the data codewords (42_assemble.md R166) -/

/-- Where block `b` begins in the data: the long blocks are one codeword longer. -/
def blockStart (nshort dshort b : Nat) : Nat :=
  b * dshort + (b - nshort)

/-- How many data codewords block `b` has. -/
def blockSize (nshort dshort b : Nat) : Nat :=
  if b < nshort then dshort else dshort + 1

theorem blockStart_succ (nshort dshort b : Nat) :
    blockStart nshort dshort (b + 1) = blockStart nshort dshort b + blockSize nshort dshort b := by
  unfold blockStart blockSize
  rw [Nat.succ_mul]
  split <;> omega

theorem blockLengths_eq (nb nshort dshort : Nat) :
    blockLengths nb nshort dshort = (List.range nb).map (blockSize nshort dshort) := rfl

/-- The first `b` blocks take the codewords before block `b`. -/
theorem sum_take_blockLengths {nb b : Nat} (nshort dshort : Nat) (h : b ≤ nb) :
    ((blockLengths nb nshort dshort).take b).sum = blockStart nshort dshort b := by
  rw [blockLengths_eq, ← List.map_take, List.take_range, Nat.min_eq_left h]
  clear h
  induction b with
  | zero => simp [blockStart]
  | succ b ih => rw [List.range_succ, List.map_append, List.sum_append, ih, blockStart_succ, List.map_singleton,
      List.sum_singleton]

theorem splitBlocks_getElem? (lens : List Nat) (data : List Byte) (b : Nat) :
    (splitBlocks lens data)[b]? = lens[b]?.map fun n => (data.drop (lens.take b).sum).take n := by
  induction lens generalizing data b with
  | nil => rfl
  | cons n rest ih =>
    cases b with
    | zero => rfl
    | succ b =>
      rw [splitBlocks, List.getElem?_cons_succ, ih, List.getElem?_cons_succ]
      simp only [List.drop_drop, List.take_succ_cons, List.sum_cons]

theorem length_splitBlocks (lens : List Nat) (data : List Byte) : (splitBlocks lens data).length = lens.length := by
  induction lens generalizing data with
  | nil => rfl
  | cons n rest ih => rw [splitBlocks, List.length_cons, ih, List.length_cons]

/-- Block `b` of the data (R166). -/
def dataBlock (nshort dshort : Nat) (data : List Byte) (b : Nat) : List Byte :=
  (data.drop (blockStart nshort dshort b)).take (blockSize nshort dshort b)

theorem splitBlocks_blockLengths (nb nshort dshort : Nat) (data : List Byte) :
    splitBlocks (blockLengths nb nshort dshort) data = (List.range nb).map (dataBlock nshort dshort data) := by
  refine List.ext_getElem? fun b => ?_
  rw [splitBlocks_getElem?, blockLengths_eq, List.getElem?_map, List.getElem?_map, Option.map_map]
  by_cases hb : b < nb
  · rw [List.getElem?_range hb, ← blockLengths_eq, sum_take_blockLengths _ _ hb.le]
    rfl
  · rw [List.getElem?_eq_none (by simpa using hb)]
    rfl

/-- Every block lies within the data, whose codewords the blocks share out. -/
theorem blockStart_add_blockSize_le {nb nshort dshort b : Nat} (hshort : nshort ≤ nb) (hb : b < nb) :
    blockStart nshort dshort b + blockSize nshort dshort b ≤ nb * dshort + (nb - nshort) := by
  rw [← blockStart_succ]
  unfold blockStart
  have := Nat.mul_le_mul_right dshort (show b + 1 ≤ nb from hb)
  omega

theorem dataBlock_getElem? {nshort dshort : Nat} {data : List Byte} {b i : Nat} (hi : i < blockSize nshort dshort b) :
    (dataBlock nshort dshort data b)[i]? = data[blockStart nshort dshort b + i]? := by
  rw [dataBlock, List.getElem?_take, if_pos hi, List.getElem?_drop]

theorem length_dataBlock {nb nshort dshort : Nat} {data : List Byte} {b : Nat} (hshort : nshort ≤ nb) (hb : b < nb)
    (hdata : data.length = nb * dshort + (nb - nshort)) :
    (dataBlock nshort dshort data b).length = blockSize nshort dshort b := by
  have := blockStart_add_blockSize_le (dshort := dshort) hshort hb
  rw [dataBlock, List.length_take, List.length_drop]
  omega

/-! ### Interleaving (42_assemble.md R168) -/

/-- A column of the blocks `f b` that all have it: one codeword of each block, in block order. -/
theorem column_eq_map {ids : List Nat} {f : Nat → List Byte} {i : Nat} (h : ∀ b ∈ ids, i < (f b).length) :
    ((ids.map f).filterMap fun block => block[i]?) = ids.map fun b => (f b).getD i 0 := by
  rw [List.filterMap_map, ← List.filterMap_eq_map]
  refine List.filterMap_congr fun b hb => ?_
  simp [h b hb]

theorem column_getElem? {n i b : Nat} {f : Nat → List Byte} (h : ∀ b < n, i < (f b).length) (hb : b < n) :
    (((List.range n).map f).filterMap fun block => block[i]?)[b]? = (f b)[i]? := by
  rw [column_eq_map fun c hc => h c (List.mem_range.mp hc)]
  simp [hb, h b hb]

theorem length_column {n i : Nat} {f : Nat → List Byte} (h : ∀ b < n, i < (f b).length) :
    (((List.range n).map f).filterMap fun block => block[i]?).length = n := by
  rw [column_eq_map fun b hb => h b (List.mem_range.mp hb), List.length_map, List.length_range]

/-- Columns that all blocks have: codeword `i` of block `b` stands at `i·NB + b`. -/
theorem interleaveColumns_getElem? {n nb i b : Nat} {f : Nat → List Byte} (h : ∀ b < nb, n ≤ (f b).length) (hi : i < n)
    (hb : b < nb) : (interleaveColumns n ((List.range nb).map f))[i * nb + b]? = (f b)[i]? := by
  have hcolumn : ∀ i ∈ List.range n, (((List.range nb).map f).filterMap fun block => block[i]?).length = nb :=
    fun i hi => length_column fun b hb => (List.mem_range.mp hi).trans_le (h b hb)
  rw [interleaveColumns, getElem?_flatMap_of_length hcolumn i hb, List.getElem?_range hi, Option.bind_some,
    column_getElem? (fun b hb => hi.trans_le (h b hb)) hb]

theorem length_interleaveColumns {n nb : Nat} {f : Nat → List Byte} (h : ∀ b < nb, n ≤ (f b).length) :
    (interleaveColumns n ((List.range nb).map f)).length = n * nb := by
  rw [interleaveColumns, length_flatMap_of_length, List.length_range]
  exact fun i hi => length_column fun b hb => (List.mem_range.mp hi).trans_le (h b hb)

theorem interleaveColumns_succ (n : Nat) (blocks : List (List Byte)) :
    interleaveColumns (n + 1) blocks = interleaveColumns n blocks ++ blocks.filterMap fun block => block[n]? := by
  rw [interleaveColumns, List.range_succ, List.flatMap_append, List.flatMap_singleton, interleaveColumns]

/-- The last column comes from the long blocks only. -/
theorem last_column_eq {nb nshort dshort : Nat} {f : Nat → List Byte} (hshort : nshort ≤ nb)
    (h : ∀ b < nb, (f b).length = blockSize nshort dshort b) :
    (((List.range nb).map f).filterMap fun block => block[dshort]?) =
      ((List.range (nb - nshort)).map fun k => f (nshort + k)).filterMap fun block => block[dshort]? := by
  have hsplit : List.range nb = List.range nshort ++ (List.range (nb - nshort)).map (nshort + ·) := by
    rw [← List.range_add, Nat.add_sub_cancel' hshort]
  have hnone : ((List.range nshort).map f).filterMap (fun block => block[dshort]?) = [] := by
    rw [List.filterMap_map, List.filterMap_eq_nil_iff]
    intro b hb
    have hb' := List.mem_range.mp hb
    have hlen := h b (by omega)
    rw [blockSize, if_pos hb'] at hlen
    exact List.getElem?_eq_none hlen.le
  rw [hsplit, List.map_append, List.filterMap_append, hnone, List.nil_append, List.map_map]
  rfl

/-! ### The codewords of a legal symbol (42_assemble.md R166 to R168, R172) -/

/-- NDATA is shared out over the blocks, and NCW is NDATA with the EC codewords of every block (R172). -/
theorem ndataOf_eq : ∀ v ≤ 40, 1 ≤ v → ∀ e ≤ 3, ndataOf v e = nbOf v e * dshortOf v e + (nbOf v e - nshortOf v e) := by
  decide

theorem ncwOf_eq : ∀ v ≤ 40, 1 ≤ v → ∀ e ≤ 3, ncwOf v = ndataOf v e + nbOf v e * ecbOf v e := by decide

/-- The data codewords of block `b` of a legal symbol (R166). -/
def symbolBlock (v e : Nat) (stream : List Bool) (b : Nat) : List Byte :=
  dataBlock (nshortOf v e) (dshortOf v e) (padStream stream (ndataOf v e)) b

/-- The EC codewords of block `b` of a legal symbol (R167). -/
def symbolEc (v e : Nat) (stream : List Bool) (b : Nat) : List Byte :=
  rsRem (symbolBlock v e stream b) (ecbOf v e)

/-- The three buffers of a legal symbol, block by block (R163, R166 to R168). -/
theorem assemble_paramsOf {v e : Nat} (h1 : 1 ≤ v) (h40 : v ≤ 40) (he : e ≤ 3) (stream : List Bool) :
    assemble (paramsOf v e) stream =
      { data := padStream stream (ndataOf v e)
        ecc := ((List.range (nbOf v e)).map (symbolEc v e stream)).flatten
        cw := interleaveColumns (dshortOf v e + 1) ((List.range (nbOf v e)).map (symbolBlock v e stream)) ++
          interleaveColumns (ecbOf v e) ((List.range (nbOf v e)).map (symbolEc v e stream)) } := by
  have hp := paramsHold_paramsOf h1 h40 he
  simp only [assemble, hp.ndata, hp.nb, hp.nshort, hp.dshort, hp.ecb, splitBlocks_blockLengths, List.map_map]
  rfl

section
variable {v e : Nat} (h1 : 1 ≤ v) (h40 : v ≤ 40) (he : e ≤ 3) {stream : List Bool} (hfit : stream.length ≤ 8 * ndataOf v e)
include h1 h40 he

theorem nshortOf_le : nshortOf v e ≤ nbOf v e :=
  (nshortOf_range (nbOf_range v h40 h1 e he).1).2

include hfit

theorem length_symbolBlock {b : Nat} (hb : b < nbOf v e) :
    (symbolBlock v e stream b).length = blockSize (nshortOf v e) (dshortOf v e) b :=
  length_dataBlock (nshortOf_le h1 h40 he) hb ((length_padStream hfit).trans (ndataOf_eq v h40 h1 e he))

theorem dshortOf_le_length_symbolBlock : ∀ b < nbOf v e, dshortOf v e ≤ (symbolBlock v e stream b).length := by
  intro b hb
  rw [length_symbolBlock h1 h40 he hfit hb, blockSize]
  split <;> omega

/-- The first DSHORT columns of CW, which all blocks have (R168). -/
theorem length_shortColumns :
    (interleaveColumns (dshortOf v e) ((List.range (nbOf v e)).map (symbolBlock v e stream))).length =
      dshortOf v e * nbOf v e :=
  length_interleaveColumns (dshortOf_le_length_symbolBlock h1 h40 he hfit)

/-- The long blocks all have the last data column (R168). -/
theorem dshortOf_lt_length_longBlock :
    ∀ k < nbOf v e - nshortOf v e, dshortOf v e < (symbolBlock v e stream (nshortOf v e + k)).length := by
  intro k hk
  rw [length_symbolBlock h1 h40 he hfit (by omega), blockSize, if_neg (by omega)]
  exact Nat.lt_succ_self _

theorem lastColumn_eq :
    (((List.range (nbOf v e)).map (symbolBlock v e stream)).filterMap fun block => block[dshortOf v e]?) =
      ((List.range (nbOf v e - nshortOf v e)).map fun k => symbolBlock v e stream (nshortOf v e + k)).filterMap
        fun block => block[dshortOf v e]? :=
  last_column_eq (nshortOf_le h1 h40 he) fun _ => length_symbolBlock h1 h40 he hfit

/-- The data columns of CW are as many codewords as the data (R168). -/
theorem length_dataColumns :
    (interleaveColumns (dshortOf v e + 1) ((List.range (nbOf v e)).map (symbolBlock v e stream))).length = ndataOf v e := by
  rw [interleaveColumns_succ, List.length_append, length_shortColumns h1 h40 he hfit, lastColumn_eq h1 h40 he hfit,
    length_column (dshortOf_lt_length_longBlock h1 h40 he hfit), ndataOf_eq v h40 h1 e he, Nat.mul_comm]

/-- Codeword `i` of every block stands in column `i` of the data (R168). -/
theorem dataColumns_getElem? {i b : Nat} (hi : i < dshortOf v e) (hb : b < nbOf v e) :
    (interleaveColumns (dshortOf v e + 1) ((List.range (nbOf v e)).map (symbolBlock v e stream)))[i * nbOf v e + b]? =
      (padStream stream (ndataOf v e))[blockStart (nshortOf v e) (dshortOf v e) b + i]? := by
  have hin : i * nbOf v e + b < dshortOf v e * nbOf v e := by
    have := Nat.mul_le_mul_right (nbOf v e) (show i + 1 ≤ dshortOf v e from hi)
    rw [Nat.succ_mul] at this
    omega
  have hsize : i < blockSize (nshortOf v e) (dshortOf v e) b := by
    unfold blockSize
    split <;> omega
  rw [interleaveColumns_succ, List.getElem?_append_left (by rwa [length_shortColumns h1 h40 he hfit]),
    interleaveColumns_getElem? (dshortOf_le_length_symbolBlock h1 h40 he hfit) hi hb, symbolBlock, dataBlock_getElem? hsize]

/-- The last codeword of every long block stands in the last data column (R168). -/
theorem lastColumn_getElem? {b : Nat} (hlong : nshortOf v e ≤ b) (hb : b < nbOf v e) :
    (interleaveColumns (dshortOf v e + 1) ((List.range (nbOf v e)).map (symbolBlock v e stream)))[
        dshortOf v e * nbOf v e + (b - nshortOf v e)]? =
      (padStream stream (ndataOf v e))[blockStart (nshortOf v e) (dshortOf v e) b + dshortOf v e]? := by
  have hsize : dshortOf v e < blockSize (nshortOf v e) (dshortOf v e) b := by
    rw [blockSize, if_neg (by omega)]
    exact Nat.lt_succ_self _
  rw [interleaveColumns_succ, ← length_shortColumns h1 h40 he hfit, List.getElem?_append_right (Nat.le_add_right _ _),
    Nat.add_sub_cancel_left, lastColumn_eq h1 h40 he hfit,
    column_getElem? (dshortOf_lt_length_longBlock h1 h40 he hfit) (by omega), Nat.add_sub_cancel' hlong, symbolBlock,
    dataBlock_getElem? hsize]

end

/-- The blocks' EC codewords are all of one length (R167). -/
theorem length_of_mem_symbolEc {v e n : Nat} {stream : List Bool} :
    ∀ block ∈ (List.range n).map (symbolEc v e stream), block.length = ecbOf v e := by
  simp only [List.forall_mem_map, symbolEc, length_rsRem, implies_true]

theorem length_symbolEc_flatten (v e n : Nat) (stream : List Bool) :
    ((List.range n).map (symbolEc v e stream)).flatten.length = n * ecbOf v e := by
  rw [← List.flatMap_id, length_flatMap_of_length (f := id) length_of_mem_symbolEc, List.length_map, List.length_range]

theorem ecbOf_le_length_symbolEc {v e n : Nat} {stream : List Bool} : ∀ b < n, ecbOf v e ≤ (symbolEc v e stream b).length :=
  fun _ _ => (length_rsRem _ _).ge

/-- EC codeword `i` of block `b` stands in column `i` of the EC codewords (R168). -/
theorem ecColumns_getElem? {v e n i b : Nat} {stream : List Bool} (hi : i < ecbOf v e) (hb : b < n) :
    (interleaveColumns (ecbOf v e) ((List.range n).map (symbolEc v e stream)))[i * n + b]? =
      ((List.range n).map (symbolEc v e stream)).flatten[b * ecbOf v e + i]? := by
  rw [interleaveColumns_getElem? ecbOf_le_length_symbolEc hi hb, ← List.flatMap_id,
    getElem?_flatMap_of_length (f := id) length_of_mem_symbolEc b hi]
  simp [hb]

/-- The buffers' lengths are the parameters (R166 to R168). -/
theorem length_cw_assemble {v e : Nat} (h1 : 1 ≤ v) (h40 : v ≤ 40) (he : e ≤ 3) {stream : List Bool}
    (hfit : stream.length ≤ 8 * ndataOf v e) : (assemble (paramsOf v e) stream).cw.length = ncwOf v := by
  rw [assemble_paramsOf h1 h40 he]
  simp only [List.length_append, length_dataColumns h1 h40 he hfit]
  rw [length_interleaveColumns ecbOf_le_length_symbolEc, ncwOf_eq v h40 h1 e he, Nat.mul_comm]

/-- Settles O25: pieces of one length stand at multiples of that length, in ECC and in the columns of CW. -/
theorem interleavingIsColumnwise : Obligations.InterleavingIsColumnwise := by
  unfold Obligations.InterleavingIsColumnwise
  intro v e stream h1 h40 he hfit
  have hcw := length_cw_assemble h1 h40 he hfit
  rw [assemble_paramsOf h1 h40 he] at hcw ⊢
  have hdata := length_dataColumns h1 h40 he hfit
  have hndata := ndataOf_eq v h40 h1 e he
  refine ⟨rfl, length_padStream hfit, length_symbolEc_flatten v e _ stream, hcw, fun b hb => ?_, fun i b hi hb => ?_,
    fun b hlong hb => ?_, fun i b hi hb => ?_⟩
  · exact take_drop_flatten length_of_mem_symbolEc (by simp [hb]; rfl)
  · have hin : i * nbOf v e + b < ndataOf v e := by
      have hcol := Nat.mul_le_mul_right (nbOf v e) (show i + 1 ≤ dshortOf v e from hi)
      rw [Nat.succ_mul, Nat.mul_comm (dshortOf v e)] at hcol
      have hb : b < nbOf v e := hb
      omega
    rw [List.getElem?_append_left (by omega)]
    exact dataColumns_getElem? h1 h40 he hfit hi hb
  · have hin : dshortOf v e * nbOf v e + (b - nshortOf v e) < ndataOf v e := by
      have hlong : nshortOf v e ≤ b := hlong
      have hb : b < nbOf v e := hb
      rw [Nat.mul_comm]
      omega
    rw [List.getElem?_append_left (by omega)]
    exact lastColumn_getElem? h1 h40 he hfit hlong hb
  · rw [Nat.add_assoc, List.getElem?_append_right (by omega), hdata, Nat.add_sub_cancel_left]
    exact ecColumns_getElem? hi hb

/-! ### QR.ASM (42_assemble.md R162 to R164) -/

/-- Bit `i` of a byte sequence: the most significant bit of a byte comes first (00_scope.md R13). -/
theorem streamOf_getElem? (bytes : List Byte) (i : Nat) :
    (streamOf bytes)[i]? = bytes[i / 8]?.map fun v => v.getLsbD (7 - i % 8) := by
  have hbit : ∀ (v : Byte), ∀ j < 8, (byteBits v)[j]? = some (v.getLsbD (7 - j)) := by
    intro v j hj
    match j with
    | 0 | 1 | 2 | 3 | 4 | 5 | 6 | 7 => rfl
  have hplace : i = i / 8 * 8 + i % 8 := (Nat.div_add_mod' i 8).symm
  conv_lhs => rw [hplace, streamOf, getElem?_flatMap_of_length (fun v _ => length_byteBits v) _ (Nat.mod_lt i (by decide))]
  cases bytes[i / 8]? with
  | none => rfl
  | some v => exact hbit v (i % 8) (Nat.mod_lt i (by decide))

/-- The segment bits, read one by one from BITS (R162). -/
theorem segmentStream_eq_map (s : State) :
    s.segmentStream = (List.range s.bitlen.toNat).map fun i => (s.readByte .bits (i / 8)).getLsbD (7 - i % 8) := by
  refine List.ext_getElem? fun i => ?_
  rw [State.segmentStream, List.getElem?_take, List.getElem?_map]
  split
  · next hi =>
    have hbyte : i / 8 < ceilDiv8 s.bitlen.toNat := by unfold ceilDiv8; omega
    rw [streamOf_getElem?, State.readBlock_getElem?, if_pos hbyte, List.getElem?_range hi]
    rfl
  · next hi => rw [List.getElem?_eq_none (by simpa using hi)]; rfl

@[simp] theorem length_segmentStream (s : State) : s.segmentStream.length = s.bitlen.toNat := by
  rw [segmentStream_eq_map, List.length_map, List.length_range]

/-- Outside UNSEGMENTED the symbol parameters are those of a legal version and level (10_state.md R33 to R39). -/
theorem ParamsAgree.legal {s : State} (h : ParamsAgree s) (hp : s.phase ≠ .unsegmented) :
    ∃ v e, 1 ≤ v ∧ v ≤ 40 ∧ e ≤ 3 ∧ s.params = paramsOf v e :=
  h.elim (fun h => absurd h.1 hp) fun h => h.2

/-- Under legal parameters, a stream that fits is assembled within the buffers (42_assemble.md R174). -/
theorem overrun?_asmReach {s : State} {v e : Nat} (h1 : 1 ≤ v) (h40 : v ≤ 40) (he : e ≤ 3) (hparams : s.params = paramsOf v e)
    (hlen : s.bitlen.toNat ≤ 8 * ndataOf v e) : overrun? (asmReach s) = none := by
  have hp := paramsHold_paramsOf h1 h40 he
  have hcw : (assemble (paramsOf v e) s.segmentStream).cw.length = ncwOf v :=
    length_cw_assemble h1 h40 he (by rwa [length_segmentStream])
  have hndata := ndataOf_le v h40 e he
  have hbits : ceilDiv8 s.bitlen.toNat ≤ 2956 := by
    unfold ceilDiv8
    omega
  rw [overrun?_eq_none_iff]
  simp only [asmReach, hparams, hp.ndata, hp.nb, hp.ecb, hcw, List.forall_mem_cons]
  exact ⟨hbits, hndata, nbOf_mul_ecbOf_le v h40 h1 e he, ncwOf_le v h40, by simp⟩

/-- Settles O26: three loads, each as long as its buffer's extent. -/
theorem qrAsmAssemblesTheCodewords : Obligations.QrAsmAssemblesTheCodewords := by
  unfold Obligations.QrAsmAssemblesTheCodewords
  refine ⟨?_, fun s hp hlen => exec_eq_of_fails (.payload hp hlen) (by decide)⟩
  intro s out hphase hagree hlen hout
  obtain ⟨v, e, h1, h40, he, hparams⟩ := hagree.legal (by rw [hphase]; decide)
  have hp := paramsHold_paramsOf h1 h40 he
  rw [← segmentStream_eq_map] at hout
  have hfit : s.segmentStream.length ≤ 8 * ndataOf v e := by
    rwa [length_segmentStream, ← hp.ndata, ← hparams]
  have hreach := overrun?_asmReach h1 h40 he hparams (by rwa [length_segmentStream] at hfit)
  obtain ⟨t, hexec, ht⟩ := exists_exec_of_effect (Effect.qrAsm hphase hlen hreach)
  rw [← hout] at ht
  have hdata : t.bufs.get .data = Memory.load out.data (s.bufs.get .data) := by rw [ht]; rfl
  have hecc : t.bufs.get .ecc = Memory.load out.ecc (s.bufs.get .ecc) := by rw [ht]; rfl
  have hcw : t.bufs.get .cw = Memory.load out.cw (s.bufs.get .cw) := by rw [ht]; rfl
  have hout' := hout.trans (hparams ▸ assemble_paramsOf h1 h40 he s.segmentStream)
  have hdataLen : out.data.length = s.params.ndata.toNat := by
    rw [hparams, hp.ndata, hout', length_padStream hfit]
  have heccLen : out.ecc.length = s.params.nb.toNat * s.params.ecb.toNat := by
    rw [hparams, hp.nb, hp.ecb, hout', length_symbolEc_flatten]
  have hcwLen : out.cw.length = s.params.ncw.toNat := by
    rw [hout, hparams, hp.ncw, length_cw_assemble h1 h40 he hfit]
  refine ⟨t, hexec, by rw [ht], fun i hi => ?_, fun i hi => ?_, fun i hi => ?_, fun i hi => ?_, fun i hi => ?_,
    fun i hi => ?_, exec_sameBytes hexec⟩
  · exact readByte_of_lt_load hdata (by rw [ht]) (by rw [ht]) (by omega)
  · exact readByte_of_load_le hdata (by rw [ht]) (by rw [ht]) (by omega)
  · exact readByte_of_lt_load hecc (by rw [ht]) (by rw [ht]) (heccLen ▸ hi)
  · exact readByte_of_load_le hecc (by rw [ht]) (by rw [ht]) (heccLen ▸ hi)
  · exact readByte_of_lt_load hcw (by rw [ht]) (by rw [ht]) (by omega)
  · exact readByte_of_load_le hcw (by rw [ht]) (by rw [ht]) (by omega)

end Sys2Proof.Machine

namespace Sys2Proof.Machine

/-! ### The order of the zig-zag (43_matrix.md R200) -/

/-- The right column of the pair number `pair`, from the right; column 6 is skipped (R200). -/
def rightColumn (side pair : Nat) : Nat :=
  if 6 < side - 1 - 2 * pair then side - 1 - 2 * pair else side - 2 - 2 * pair

/-- The column the sequencer begins pair number `pair` at, before it skips column 6. -/
def pairStart (side pair : Nat) : Nat :=
  if 6 ≤ side - 1 - 2 * pair then side - 1 - 2 * pair else side - 2 - 2 * pair

/-- On an odd side the pairs from number `pair` on are those of `rightColumn`, down to column 0. -/
theorem pairColumns_pairStart {side fuel pair : Nat} (hside : side % 2 = 1) (hfuel : (side - 1) / 2 - pair ≤ fuel) :
    pairColumns fuel (pairStart side pair) =
      (List.range ((side - 1) / 2 - pair)).map fun k => rightColumn side (pair + k) := by
  induction fuel generalizing pair with
  | zero =>
    rw [Nat.le_zero.mp hfuel]
    rfl
  | succ fuel ih =>
    rw [pairColumns]
    by_cases hlast : (side - 1) / 2 ≤ pair
    · have hstart : pairStart side pair < 1 := by
        unfold pairStart
        split <;> omega
      rw [if_pos hstart, Nat.sub_eq_zero_of_le hlast]
      rfl
    · have hstart : ¬ pairStart side pair < 1 := by
        unfold pairStart
        split <;> omega
      have hright : (if pairStart side pair = 6 then 5 else pairStart side pair) = rightColumn side pair := by
        unfold pairStart rightColumn
        split_ifs <;> omega
      have hnext : rightColumn side pair - 2 = pairStart side (pair + 1) := by
        unfold pairStart rightColumn
        split_ifs <;> omega
      have hcount : (side - 1) / 2 - pair = (side - 1) / 2 - (pair + 1) + 1 := by omega
      rw [if_neg hstart]
      simp only [hright, hnext]
      rw [ih (by omega), hcount, List.range_succ_eq_map, List.map_cons, List.map_map, Nat.add_zero]
      refine congrArg (List.cons _) (List.map_congr_left fun k _ => ?_)
      rw [Function.comp_apply, Nat.succ_eq_add_one, Nat.add_right_comm, Nat.add_assoc]

theorem pairColumns_eq {side : Nat} (hside : side % 2 = 1) (h7 : 7 ≤ side) :
    pairColumns side (side - 1) = (List.range ((side - 1) / 2)).map (rightColumn side) := by
  have hstart : pairStart side 0 = side - 1 := by
    unfold pairStart
    split <;> omega
  have hpairs := pairColumns_pairStart (pair := 0) (fuel := side) hside (by omega)
  simpa only [hstart, Nat.sub_zero, Nat.zero_add] using hpairs

theorem and_two_eq_zero_iff (n : Nat) : n &&& 2 = 0 ↔ n / 2 % 2 = 0 := by
  have hbit : n &&& 2 = (n.testBit 1).toNat * 2 := Nat.and_two_pow n 1
  rw [hbit, Nat.testBit_eq_decide_div_mod_eq]
  by_cases h : n / 2 % 2 = 1
  · simp [h]
  · have h0 : n / 2 % 2 = 0 := by omega
    simp [h0]

/-- The pairs of even number are walked upward, on a side of a version (R200). -/
theorem upward_iff {v pair : Nat} (hpair : 2 * pair + 1 < sideOf v) :
    (rightColumn (sideOf v) pair + 1) &&& 2 = 0 ↔ pair % 2 = 0 := by
  rw [and_two_eq_zero_iff]
  unfold rightColumn sideOf at *
  split <;> omega

theorem sideOf_odd (v : Nat) : sideOf v % 2 = 1 ∧ 7 ≤ sideOf v := by
  unfold sideOf
  omega

theorem length_pairModules (side right : Nat) : (pairModules side right).length = 2 * side := by
  rw [pairModules, length_flatMap_of_length (w := 2) fun _ _ => rfl, List.length_range, Nat.mul_comm]

/-- In each row of a pair the right column comes first (R200). -/
theorem pairModules_getElem? {side right vert j : Nat} (hvert : vert < side) (hj : j < 2) :
    (pairModules side right)[vert * 2 + j]? =
      some (if (right + 1) &&& 2 = 0 then side - 1 - vert else vert, right - j) := by
  rw [pairModules, getElem?_flatMap_of_length (w := 2) (fun _ _ => rfl) vert hj, List.getElem?_range hvert, Option.bind_some]
  match j with
  | 0 => rfl
  | 1 => rfl

theorem zigzag_eq {side : Nat} (hside : side % 2 = 1) (h7 : 7 ≤ side) :
    zigzag side = (List.range ((side - 1) / 2)).flatMap fun pair => pairModules side (rightColumn side pair) := by
  rw [zigzag, pairColumns_eq hside h7, List.flatMap_map]

theorem length_zigzag {side : Nat} (hside : side % 2 = 1) (h7 : 7 ≤ side) : (zigzag side).length = side * (side - 1) := by
  rw [zigzag_eq hside h7, length_flatMap_of_length fun pair _ => length_pairModules side _, List.length_range]
  have heven : (side - 1) / 2 * 2 = side - 1 := by omega
  rw [← Nat.mul_assoc, heven, Nat.mul_comm]

theorem zigzag_getElem? {v pair vert j : Nat} (hpair : 2 * pair + 1 < sideOf v) (hvert : vert < sideOf v)
    (hj : j < 2) : (zigzag (sideOf v))[pair * (2 * sideOf v) + (2 * vert + j)]? =
      some (if pair % 2 = 0 then sideOf v - 1 - vert else vert, rightColumn (sideOf v) pair - j) := by
  obtain ⟨hside, h7⟩ := sideOf_odd v
  rw [zigzag_eq hside h7, getElem?_flatMap_of_length (fun pair _ => length_pairModules _ _) pair (by omega),
    List.getElem?_range (by omega), Option.bind_some, Nat.mul_comm 2 vert, pairModules_getElem? hvert hj]
  simp only [upward_iff hpair]

/-- The sequencer stays in the symbol and out of column 6. -/
theorem lt_and_ne_six_of_mem_zigzag {side r c : Nat} (hside : side % 2 = 1) (h7 : 7 ≤ side) (h : (r, c) ∈ zigzag side) :
    r < side ∧ c < side ∧ c ≠ 6 := by
  rw [zigzag_eq hside h7] at h
  obtain ⟨pair, hpair, hmodules⟩ := List.mem_flatMap.mp h
  simp only [pairModules, List.mem_flatMap, List.mem_range, List.mem_cons, Prod.mk.injEq, List.not_mem_nil, or_false] at *
  obtain ⟨vert, hvert, hplace⟩ := hmodules
  have hcolumn : rightColumn side pair < side ∧ rightColumn side pair ≠ 6 ∧ rightColumn side pair ≠ 7 := by
    unfold rightColumn
    split <;> omega
  have hrow : r < side := by
    obtain ⟨rfl, -⟩ | ⟨rfl, -⟩ := hplace <;> split <;> omega
  exact ⟨hrow, by omega, by omega⟩

theorem mem_zigzag_iff {v r c : Nat} :
    (r, c) ∈ zigzag (sideOf v) ↔ r < sideOf v ∧ c < sideOf v ∧ c ≠ 6 := by
  obtain ⟨hside, h7⟩ := sideOf_odd v
  exact ⟨lt_and_ne_six_of_mem_zigzag hside h7, fun ⟨hr, hc, hc6⟩ => mem_zigzag hr hc hc6⟩

/-- The sequencer makes as many visits as there are modules to visit, so it visits none twice. -/
theorem zigzag_nodup (v : Nat) : (zigzag (sideOf v)).Nodup := by
  obtain ⟨hside, h7⟩ := sideOf_odd v
  have hvisited : (zigzag (sideOf v)).toFinset = Finset.range (sideOf v) ×ˢ (Finset.range (sideOf v)).erase 6 := by
    ext ⟨r, c⟩
    rw [List.mem_toFinset, mem_zigzag_iff, Finset.mem_product, Finset.mem_erase, Finset.mem_range, Finset.mem_range]
    tauto
  have hcard := congrArg Finset.card hvisited
  rw [Finset.card_product, Finset.card_erase_of_mem (Finset.mem_range.mpr (by omega)), Finset.card_range,
    ← length_zigzag hside h7] at hcard
  exact Multiset.toFinset_card_eq_card_iff_nodup.mp hcard

/-- Settles O31. -/
theorem zigzagVisitsEachModuleOnce : Obligations.ZigzagVisitsEachModuleOnce := by
  unfold Obligations.ZigzagVisitsEachModuleOnce
  rintro v _ - - rfl
  obtain ⟨hside, h7⟩ := sideOf_odd v
  refine ⟨zigzag_nodup v, length_zigzag hside h7, fun r c => mem_zigzag_iff, ?_⟩
  rintro pair vert j _ hpair hvert hj rfl
  exact zigzag_getElem? hpair hvert hj

/-- Settles O32: closed lists of modules. -/
theorem versionOnePlacementOrder : Obligations.VersionOnePlacementOrder := by
  unfold Obligations.VersionOnePlacementOrder
  decide +kernel

/-! ### The placed bits (43_matrix.md R200, R201) -/

/-- The i-th module of the traversal that is still UNSET takes bit `i`. -/
theorem cell_placeData {side i r c : Nat} {m : Matrix} (h : m.Square side) {places : List (Nat × Nat)}
    (hplaces : ∀ p ∈ places, p.1 < side ∧ p.2 < side) (hnodup : places.Nodup) (bits : List Bool)
    (hi : (places.filter fun p => m.cell p.1 p.2 = cellUnset)[i]? = some (r, c)) :
    (placeData places bits m).cell r c = dataCell (bits.getD i false) := by
  induction places generalizing bits m i with
  | nil => simp at hi
  | cons p rest ih =>
    obtain ⟨hp, hrest⟩ := List.forall_mem_cons.mp hplaces
    obtain ⟨hnotin, hnodup'⟩ := List.nodup_cons.mp hnodup
    rw [placeData]
    by_cases hunset : m.cell p.1 p.2 = cellUnset
    · rw [if_pos hunset]
      rw [List.filter_cons_of_pos (by simpa using hunset)] at hi
      have hput := h.put p.1 p.2 (dataCell (bits.headD false))
      cases i with
      | zero =>
        obtain rfl : p = (r, c) := by simpa using hi
        have hcell : (m.put r c (dataCell (bits.headD false))).cell r c = dataCell (bits.headD false) := by
          rw [h.cell_put hp.1 hp.2, if_pos rfl]
        have hset : (m.put r c (dataCell (bits.headD false))).cell r c ≠ cellUnset := by
          rw [hcell]
          exact dataCell_ne_cellUnset _
        rw [cell_placeData_of_ne_unset hput hp.1 hp.2 hset, hcell]
        cases bits <;> rfl
      | succ i =>
        have hsame : (rest.filter fun q => (m.put p.1 p.2 (dataCell (bits.headD false))).cell q.1 q.2 = cellUnset) =
            rest.filter fun q => m.cell q.1 q.2 = cellUnset := by
          refine List.filter_congr fun q hq => ?_
          have hne : (q.1, q.2) ≠ (p.1, p.2) := fun heq => hnotin ((show q = p from heq) ▸ hq)
          rw [h.cell_put (hrest q hq).1 (hrest q hq).2, if_neg hne]
        rw [ih hput hrest hnodup' (bits.drop 1) (by rw [hsame]; exact hi)]
        cases bits <;> rfl
    · rw [if_neg hunset]
      rw [List.filter_cons_of_neg (by simpa using hunset)] at hi
      exact ih h hrest hnodup' bits hi

/-- Settles O34. -/
theorem dataBitsFollowTheZigzag : Obligations.DataBitsFollowTheZigzag := by
  unfold Obligations.DataBitsFollowTheZigzag
  intro v cw i r c h1 h40 hi
  have hplaces : ∀ p ∈ zigzag (sideOf v), p.1 < sideOf v ∧ p.2 < sideOf v := fun p hp =>
    ⟨(mem_zigzag_iff.mp hp).1, (mem_zigzag_iff.mp hp).2.1⟩
  rw [buildMatrix, cell_placeData (square_functionMatrix v _) hplaces (zigzag_nodup v) _ hi, List.getD_eq_getElem?_getD,
    streamOf_getElem?]
  by_cases hlt : i / 8 < cw.length <;> simp [hlt]

end Sys2Proof.Machine

namespace Sys2Proof.Machine

/-! ### A matrix in the MATRIX buffer (00_scope.md R12, 10_state.md R51) -/

theorem Matrix.Square.length_flatten {side : Nat} {m : Matrix} (h : m.Square side) : m.flatten.length = side * side := by
  rw [← List.flatMap_id, length_flatMap_of_length (f := id) h.columns, h.rows]

/-- The cell of (r, c) stands at index r·SIDE + c. -/
theorem Matrix.Square.getD_flatten {side r c : Nat} {m : Matrix} (h : m.Square side) (hr : r < side) (hc : c < side) :
    m.flatten.getD (r * side + c) 0 = m.cell r c := by
  have hrow : r < m.length := h.rows.symm ▸ hr
  have hcol : c < m[r].length := (h.columns _ (List.getElem_mem hrow)).symm ▸ hc
  rw [List.getD_eq_getElem?_getD, ← List.flatMap_id, getElem?_flatMap_of_length (f := id) h.columns r hc]
  simp [Matrix.cell, hrow, hcol]

theorem rowsOf_getElem? {α : Type} (width n : Nat) (l : List α) (r : Nat) :
    (rowsOf width n l)[r]? = if r < n then some ((l.drop (r * width)).take width) else none := by
  induction n generalizing l r with
  | zero => simp [rowsOf]
  | succ n ih =>
    cases r with
    | zero => simp [rowsOf]
    | succ r =>
      rw [rowsOf, List.getElem?_cons_succ, ih, List.drop_drop]
      simp [Nat.succ_mul, Nat.add_comm]

theorem length_rowsOf {α : Type} (width n : Nat) (l : List α) : (rowsOf width n l).length = n := by
  induction n generalizing l with
  | zero => rfl
  | succ n ih => rw [rowsOf, List.length_cons, ih]

/-- Rows cut from a list of the right length are a square matrix. -/
theorem square_rowsOf {side : Nat} {l : List Byte} (h : l.length = side * side) :
    Matrix.Square side (rowsOf side side l) := by
  refine ⟨length_rowsOf side side l, fun row hrow => ?_⟩
  obtain ⟨r, hr⟩ := List.mem_iff_getElem?.mp hrow
  rw [rowsOf_getElem?] at hr
  split at hr
  · next hlt =>
    cases hr
    have := Nat.mul_le_mul_right side (show r + 1 ≤ side from hlt)
    rw [Nat.succ_mul] at this
    rw [List.length_take, List.length_drop, h]
    omega
  · cases hr

theorem cell_rowsOf {side r c : Nat} {l : List Byte} (hr : r < side) (hc : c < side) :
    Matrix.cell (rowsOf side side l) r c = l.getD (r * side + c) 0 := by
  simp only [Matrix.cell, List.getD_eq_getElem?_getD, rowsOf_getElem?, if_pos hr, Option.getD_some, List.getElem?_take,
    if_pos hc, List.getElem?_drop]

theorem lt_mul_self_of_lt {side r c : Nat} (hr : r < side) (hc : c < side) : r * side + c < side * side := by
  have := Nat.mul_le_mul_right side (show r + 1 ≤ side from hr)
  rw [Nat.succ_mul] at this
  omega

theorem square_matrixRows (s : State) : s.matrixRows.Square s.params.side.toNat :=
  square_rowsOf (State.readBlock_length _ _ _)

/-- The rows QR.EVAL and QR.FINAL read are the cells of MATRIX. -/
theorem cell_matrixRows {s : State} {r c : Nat} (hr : r < s.params.side.toNat) (hc : c < s.params.side.toNat) :
    s.matrixRows.cell r c = s.matrixCell r c := by
  rw [State.matrixRows, cell_rowsOf hr hc, List.getD_eq_getElem?_getD, State.readBlock_getElem?,
    if_pos (lt_mul_self_of_lt hr hc)]
  rfl

/-- A load of a square matrix into MATRIX, read back cell by cell; the bytes past it are as they were (log entry 10). -/
theorem matrixCell_of_load {s t : State} {m : Matrix} (h : m.Square s.params.side.toNat)
    (hb : t.bufs.get .matrix = Memory.load m.flatten (s.bufs.get .matrix)) (hside : t.params = s.params)
    (hp : t.powerOns = s.powerOns) (hr : t.resets = s.resets) :
    (∀ r c, r < s.params.side.toNat → c < s.params.side.toNat → t.matrixCell r c = m.cell r c) ∧
    (∀ i, s.params.side.toNat * s.params.side.toNat ≤ i → t.readByte .matrix i = s.readByte .matrix i) := by
  refine ⟨fun r c hr' hc => ?_, fun i hi => readByte_of_load_le hb hp hr (by rwa [h.length_flatten])⟩
  rw [State.matrixCell, hside, readByte_of_lt_load hb hp hr (by rw [h.length_flatten]; exact lt_mul_self_of_lt hr' hc),
    h.getD_flatten hr' hc]

theorem sideOf_mul_sideOf_le {v : Nat} (h40 : v ≤ 40) : sideOf v * sideOf v ≤ 31329 :=
  have hside : sideOf v ≤ 177 := by unfold sideOf; omega
  Nat.mul_le_mul hside hside

/-! ### QR.BUILD (43_matrix.md R190) -/

/-- Under legal parameters QR.BUILD stays within its buffers (42_assemble.md R174). -/
theorem overrun?_buildReach {s : State} {v e : Nat} (h1 : 1 ≤ v) (h40 : v ≤ 40) (he : e ≤ 3)
    (hparams : s.params = paramsOf v e) : overrun? (buildReach s) = none := by
  have hp := paramsHold_paramsOf h1 h40 he
  rw [overrun?_eq_none_iff]
  simp only [buildReach, hparams, hp.ncw, hp.side, List.forall_mem_cons]
  exact ⟨ncwOf_le v h40, sideOf_mul_sideOf_le h40, by simp⟩

/-- Settles O35: one load of the built matrix, row after row. -/
theorem qrBuildWritesTheMatrix : Obligations.QrBuildWritesTheMatrix := by
  unfold Obligations.QrBuildWritesTheMatrix
  intro s hphase hagree hc
  obtain ⟨v, e, h1, h40, he, hparams⟩ := hagree.legal (by rw [hphase]; decide)
  obtain ⟨t, hexec, ht⟩ := exists_exec_of_effect (Effect.qrBuild hphase hc (overrun?_buildReach h1 h40 he hparams))
  have hmatrix : t.bufs.get .matrix = Memory.load (buildMatrix s.params.version.toNat s.params.side.toNat
      (s.readBlock .cw s.params.ncw.toNat)).flatten (s.bufs.get .matrix) := by rw [ht]; rfl
  obtain ⟨hcells, hrest⟩ := matrixCell_of_load (square_buildMatrix _ _ _) hmatrix (by rw [ht]) (by rw [ht]) (by rw [ht])
  rw [readBlock_eq_map] at hcells
  exact ⟨t, hexec, by rw [ht], hcells, hrest, exec_sameBytes hexec⟩

/-! ### The information bits (44_mask.md R240, R242) -/

/-- The cells of `places i` set to `code i`, for each `i` below `n` in turn. -/
def writeBits (places : Nat → List (Nat × Nat)) (code : Nat → Byte) (n : Nat) (m : Matrix) : Matrix :=
  (List.range n).foldl (fun m i => m.putAll (places i) (code i)) m

theorem writeBits_succ (places : Nat → List (Nat × Nat)) (code : Nat → Byte) (n : Nat) (m : Matrix) :
    writeBits places code (n + 1) m = (writeBits places code n m).putAll (places n) (code n) := by
  rw [writeBits, List.range_succ, List.foldl_append]
  rfl

theorem Matrix.Square.writeBits {side : Nat} {m : Matrix} (h : m.Square side) (places : Nat → List (Nat × Nat))
    (code : Nat → Byte) (n : Nat) : (writeBits places code n m).Square side := by
  induction n with
  | zero => exact h
  | succ n ih =>
    rw [writeBits_succ]
    exact ih.putAll _ _

theorem Matrix.Square.cell_writeBits_of_not_mem {side r c n : Nat} {m : Matrix} (h : m.Square side) (hr : r < side)
    (hc : c < side) {places : Nat → List (Nat × Nat)} (code : Nat → Byte) (hout : ∀ i < n, (r, c) ∉ places i) :
    (Machine.writeBits places code n m).cell r c = m.cell r c := by
  induction n with
  | zero => rfl
  | succ n ih =>
    rw [writeBits_succ, (h.writeBits places code n).cell_putAll hr hc, if_neg (hout n (Nat.lt_succ_self n)),
      ih fun i hi => hout i (by omega)]

/-- A cell that belongs to one bit only holds that bit. -/
theorem Matrix.Square.cell_writeBits {side r c n i : Nat} {m : Matrix} (h : m.Square side) (hr : r < side) (hc : c < side)
    {places : Nat → List (Nat × Nat)} (code : Nat → Byte) (hi : i < n) (hmem : (r, c) ∈ places i)
    (honly : ∀ j < n, (r, c) ∈ places j → j = i) : (Machine.writeBits places code n m).cell r c = code i := by
  induction n with
  | zero => exact absurd hi (Nat.not_lt_zero i)
  | succ n ih =>
    rw [writeBits_succ, (h.writeBits places code n).cell_putAll hr hc]
    by_cases hlast : (r, c) ∈ places n
    · rw [if_pos hlast, honly n (Nat.lt_succ_self n) hlast]
    · have hne : i ≠ n := fun heq => hlast (heq ▸ hmem)
      rw [if_neg hlast, ih (by omega) fun j hj => honly j (by omega)]

theorem writeFormat_eq (side : Nat) (fw : BitVec 15) (m : Matrix) :
    writeFormat side fw m =
      writeBits (fun i => [formatCellA i, formatCellB side i]) (fun i => funcCell (fw.getLsbD i)) 15 m := rfl

theorem writeVersion_eq (side : Nat) (vw : BitVec 18) (m : Matrix) :
    writeVersion side vw m =
      writeBits (fun i => [versionCellTR side i, versionCellBL side i]) (fun i => funcCell (vw.getLsbD i)) 18 m := rfl

/-- Every format cell belongs to one format bit (43_matrix.md R198). -/
theorem formatCell_unique {side i j r c : Nat} (hs : 21 ≤ side) (hi : i < 15) (hj : j < 15)
    (hmem : (r, c) ∈ [formatCellA i, formatCellB side i]) (hmem' : (r, c) ∈ [formatCellA j, formatCellB side j]) : j = i := by
  simp only [List.mem_cons, List.not_mem_nil, or_false, formatCellA, formatCellB] at hmem hmem'
  split_ifs at hmem hmem' <;> simp only [Prod.mk.injEq] at hmem hmem' <;> omega

/-- Every version cell belongs to one version bit (43_matrix.md R198). -/
theorem versionCell_unique {side i j r c : Nat} (hs : 45 ≤ side) (hj : j < 18)
    (hmem : (r, c) ∈ [versionCellTR side i, versionCellBL side i])
    (hmem' : (r, c) ∈ [versionCellTR side j, versionCellBL side j]) : j = i := by
  simp only [List.mem_cons, List.not_mem_nil, or_false, versionCellTR, versionCellBL, Prod.mk.injEq] at hmem hmem'
  omega

end Sys2Proof.Machine

namespace Sys2Proof.Machine

/-! ### The final matrix (44_mask.md R238, R240, R242) -/

theorem Matrix.Square.maskMatrix {side : Nat} {m : Matrix} (h : m.Square side) (k : Nat) : (maskMatrix k m).Square side := by
  simp only [Machine.maskMatrix, mapFrom_eq_mapIdx]
  refine ⟨by rw [List.length_mapIdx, h.rows], fun row hrow => ?_⟩
  obtain ⟨r, hr, rfl⟩ := List.mem_mapIdx.mp hrow
  rw [List.length_mapIdx, h.columns _ (List.getElem_mem hr)]

theorem Matrix.Square.writeFormat {side : Nat} {m : Matrix} (h : m.Square side) (fw : BitVec 15) :
    (writeFormat side fw m).Square side := by
  rw [writeFormat_eq]
  exact h.writeBits _ _ _

theorem Matrix.Square.finalMatrix {side : Nat} {m : Matrix} (h : m.Square side) (v k : Nat) (fw : BitVec 15) :
    (finalMatrix v side k fw m).Square side := by
  unfold Machine.finalMatrix
  split
  · rw [writeVersion_eq]
    exact ((h.maskMatrix k).writeFormat fw).writeBits _ _ _
  · exact (h.maskMatrix k).writeFormat fw

theorem formatCell_lt {side i r c : Nat} (hs : 21 ≤ side) (hi : i < 15)
    (hmem : (r, c) ∈ [formatCellA i, formatCellB side i]) : r < side ∧ c < side := by
  simp only [List.mem_cons, List.not_mem_nil, or_false, formatCellA, formatCellB] at hmem
  split_ifs at hmem <;> simp only [Prod.mk.injEq] at hmem <;> omega

theorem versionCell_lt {side i r c : Nat} (hs : 21 ≤ side) (hi : i < 18)
    (hmem : (r, c) ∈ [versionCellTR side i, versionCellBL side i]) : r < side ∧ c < side := by
  simp only [List.mem_cons, List.not_mem_nil, or_false, versionCellTR, versionCellBL, Prod.mk.injEq] at hmem
  omega

theorem mem_formatCells_of {side i r c : Nat} (hi : i < 15) (hmem : (r, c) ∈ [formatCellA i, formatCellB side i]) :
    (r, c) ∈ formatCells side :=
  List.mem_flatMap.mpr ⟨i, List.mem_range.mpr hi, hmem⟩

theorem mem_versionCells_of {side i r c : Nat} (hi : i < 18) (hmem : (r, c) ∈ [versionCellTR side i, versionCellBL side i]) :
    (r, c) ∈ versionCells side :=
  List.mem_flatMap.mpr ⟨i, List.mem_range.mpr hi, hmem⟩

/-- From version 7 on no format cell is a version cell (43_matrix.md R198). -/
theorem notMem_versionCells_of_mem_formatCells {side r c : Nat} (hs : 45 ≤ side) (hr : r < side) (hc : c < side)
    (hmem : (r, c) ∈ formatCells side) : (r, c) ∉ versionCells side := by
  rw [mem_formatCells (by omega) hr hc] at hmem
  rw [mem_versionCells (by omega)]
  omega

theorem sideOf_ge_of_seven_le {v : Nat} (h7 : 7 ≤ v) : 45 ≤ sideOf v := by
  unfold sideOf
  omega

/-- Outside the version cells the final matrix is the masked one with the format word. -/
theorem Matrix.Square.cell_finalMatrix_of_not_version {v side k r c : Nat} {m : Matrix} (h : m.Square side) (hr : r < side)
    (hc : c < side) (fw : BitVec 15) (hout : 7 ≤ v → (r, c) ∉ versionCells side) :
    (Machine.finalMatrix v side k fw m).cell r c = (Machine.writeFormat side fw (Machine.maskMatrix k m)).cell r c := by
  unfold Machine.finalMatrix
  split
  · next h7 =>
    rw [writeVersion_eq]
    exact ((h.maskMatrix k).writeFormat fw).cell_writeBits_of_not_mem hr hc _ fun i hi hmem =>
      hout h7 (mem_versionCells_of hi hmem)
  · rfl

theorem Matrix.Square.cell_finalMatrix_of_format {v side k i r c : Nat} {m : Matrix} (h : m.Square side) (h1 : 1 ≤ v)
    (hside : side = sideOf v) (fw : BitVec 15) (hi : i < 15) (hmem : (r, c) ∈ [formatCellA i, formatCellB side i]) :
    (Machine.finalMatrix v side k fw m).cell r c = funcCell (fw.getLsbD i) := by
  have hs : 21 ≤ side := hside ▸ sideOf_ge h1
  obtain ⟨hr, hc⟩ := formatCell_lt hs hi hmem
  rw [h.cell_finalMatrix_of_not_version hr hc fw fun h7 =>
    notMem_versionCells_of_mem_formatCells (hside ▸ sideOf_ge_of_seven_le h7) hr hc (mem_formatCells_of hi hmem),
    writeFormat_eq]
  exact (h.maskMatrix k).cell_writeBits hr hc _ hi hmem fun j hj hmem' => formatCell_unique hs hi hj hmem hmem'

theorem Matrix.Square.cell_finalMatrix_of_version {v side k i r c : Nat} {m : Matrix} (h : m.Square side) (h7 : 7 ≤ v)
    (hside : side = sideOf v) (fw : BitVec 15) (hi : i < 18) (hmem : (r, c) ∈ [versionCellTR side i, versionCellBL side i]) :
    (Machine.finalMatrix v side k fw m).cell r c = funcCell ((verinfoOf v).getLsbD i) := by
  have hs : 45 ≤ side := hside ▸ sideOf_ge_of_seven_le h7
  obtain ⟨hr, hc⟩ := versionCell_lt (by omega) hi hmem
  rw [Machine.finalMatrix, if_pos h7, writeVersion_eq]
  exact ((h.maskMatrix k).writeFormat fw).cell_writeBits hr hc _ hi hmem fun j hj hmem' => versionCell_unique hs hj hmem hmem'

theorem Matrix.Square.cell_finalMatrix_of_not_info {v side k r c : Nat} {m : Matrix} (h : m.Square side) (hr : r < side)
    (hc : c < side) (fw : BitVec 15) (hout : (r, c) ∉ infoCells v side) :
    (Machine.finalMatrix v side k fw m).cell r c = maskApply k r c (m.cell r c) := by
  rw [infoCells, List.mem_append, not_or] at hout
  obtain ⟨hformat, hversion⟩ := hout
  rw [h.cell_finalMatrix_of_not_version hr hc fw fun h7 => by rwa [if_pos h7] at hversion, writeFormat_eq,
    (h.maskMatrix k).cell_writeBits_of_not_mem hr hc _ fun i hi hmem => hformat (mem_formatCells_of hi hmem),
    cell_maskMatrix]

/-- Every format and version cell of the final matrix is a function module. -/
theorem Matrix.Square.cell_finalMatrix_of_info {v side k r c : Nat} {m : Matrix} (h : m.Square side) (h1 : 1 ≤ v)
    (hside : side = sideOf v) (fw : BitVec 15) (hmem : (r, c) ∈ infoCells v side) :
    ∃ dark, (Machine.finalMatrix v side k fw m).cell r c = funcCell dark := by
  rw [infoCells, List.mem_append] at hmem
  obtain hformat | hversion := hmem
  · obtain ⟨i, hi, hcell⟩ := List.mem_flatMap.mp hformat
    exact ⟨_, h.cell_finalMatrix_of_format h1 hside fw (List.mem_range.mp hi) hcell⟩
  · split at hversion
    · next h7 =>
      obtain ⟨i, hi, hcell⟩ := List.mem_flatMap.mp hversion
      exact ⟨_, h.cell_finalMatrix_of_version h7 hside fw (List.mem_range.mp hi) hcell⟩
    · cases hversion

/-! ### QR.FINAL (44_mask.md R238) -/

/-- QR.EVAL and QR.FINAL stay within MATRIX for every symbol side. -/
theorem overrun?_matrixReach {s : State} (hside : s.params.side.toNat ≤ 177) : overrun? (matrixReach s) = none := by
  rw [overrun?_eq_none_iff]
  simp only [matrixReach, List.forall_mem_cons]
  exact ⟨Nat.mul_le_mul hside hside, by simp⟩

theorem sideOf_le {v : Nat} (h40 : v ≤ 40) : sideOf v ≤ 177 := by
  unfold sideOf
  omega

/-- Settles O45: each cell of the loaded matrix, by the one kind of cell it is. -/
theorem qrFinalWritesTheSymbol : Obligations.QrFinalWritesTheSymbol := by
  unfold Obligations.QrFinalWritesTheSymbol
  intro s side v hphase hagree hsd hvd
  obtain ⟨v', e, h1, h40, he, hparams⟩ := hagree.legal (by rw [hphase]; decide)
  have hp := paramsHold_paramsOf h1 h40 he
  have hv : v = v' := by rw [hvd, hparams, hp.version]
  have hside : side = sideOf v := by rw [hsd, hparams, hp.side, hv]
  have h1 : 1 ≤ v := hv ▸ h1
  have hs : 21 ≤ side := hside ▸ sideOf_ge h1
  obtain ⟨t, hexec, ht⟩ := exists_exec_of_effect (Effect.qrFinal hphase
    (overrun?_matrixReach (by rw [← hsd, hside, hv]; exact sideOf_le h40)))
  have hm := square_matrixRows s
  have hmatrix : t.bufs.get .matrix = Memory.load (finalMatrix s.params.version.toNat s.params.side.toNat
      s.scores.mask.toNat (formatWord s.params.eclevel.toNat s.scores.mask.toNat) s.matrixRows).flatten
      (s.bufs.get .matrix) := by rw [ht]; rfl
  obtain ⟨hcells, hrest⟩ := matrixCell_of_load (hm.finalMatrix _ _ _) hmatrix (by rw [ht]) (by rw [ht]) (by rw [ht])
  rw [← hsd, ← hvd] at hcells
  rw [← hsd] at hrest hm
  have hformat : t.format = formatWord s.params.eclevel.toNat s.scores.mask.toNat := by rw [ht]
  have hverinfo : t.verinfo = verinfoOf v := by rw [ht, hvd]
  have hformatCell {i r c : Nat} (hi : i < 15) (hmem : (r, c) ∈ [formatCellA i, formatCellB side i]) :
      t.matrixCell r c = funcCell (t.format.getLsbD i) := by
    obtain ⟨hr, hc⟩ := formatCell_lt hs hi hmem
    rw [hcells r c hr hc, hformat, hm.cell_finalMatrix_of_format h1 hside _ hi hmem]
  have hversionCell {i r c : Nat} (h7 : 7 ≤ v) (hi : i < 18) (hmem : (r, c) ∈ [versionCellTR side i, versionCellBL side i]) :
      t.matrixCell r c = funcCell (t.verinfo.getLsbD i) := by
    obtain ⟨hr, hc⟩ := versionCell_lt hs hi hmem
    rw [hcells r c hr hc, hverinfo, hm.cell_finalMatrix_of_version h7 hside _ hi hmem]
  refine ⟨t, hexec, by rw [ht], hformat, hverinfo, fun i hi => ⟨hformatCell hi (by simp), hformatCell hi (by simp)⟩,
    fun h7 i hi => ⟨hversionCell h7 hi (by simp), hversionCell h7 hi (by simp)⟩, fun r c hr hc hout => ?_, hrest,
    exec_sameBytes hexec⟩
  rw [hcells r c hr hc, hm.cell_finalMatrix_of_not_info hr hc _ hout, cell_matrixRows (hsd ▸ hr) (hsd ▸ hc)]

end Sys2Proof.Machine

namespace Sys2Proof.Machine

/-! ### The scores of a candidate fit a register (44_mask.md R224, 10_state.md R48 to R50) -/

theorem Matrix.Square.candidate {side : Nat} {m : Matrix} (h : m.Square side) (k : Nat) :
    (candidate k m).length = side ∧ ∀ row ∈ candidate k m, row.length = side := by
  have hmask := h.maskMatrix k
  refine ⟨by rw [Machine.candidate, List.length_map, hmask.rows], fun row hrow => ?_⟩
  obtain ⟨codes, hcodes, rfl⟩ := List.mem_map.mp hrow
  rw [List.length_map, hmask.columns _ hcodes]

theorem length_lineOfRuns (colour : Bool) (runs : List Nat) : (lineOfRuns colour runs).length = runs.sum := by
  induction runs generalizing colour with
  | nil => rfl
  | cons n rest ih => rw [lineOfRuns, List.length_append, List.length_replicate, ih, List.sum_cons]

theorem sum_runLengths (line : List Bool) : (runLengths line).sum = line.length := by
  rw [← length_lineOfRuns (line.headD false), lineOfRuns_runLengths]

theorem runPenalty_le (n : Nat) : runPenalty n ≤ n := by
  rw [runPenalty_eq]
  split <;> omega

theorem rule1Line_le (line : List Bool) : rule1Line line ≤ line.length := by
  rw [rule1Line, ← sum_runLengths]
  calc ((runLengths line).map runPenalty).sum
    _ ≤ ((runLengths line).map id).sum := List.sum_le_sum fun n _ => runPenalty_le n
    _ = (runLengths line).sum := by rw [List.map_id]

theorem rule3Line_le (line : List Bool) : rule3Line line ≤ 40 * line.length := by
  rw [rule3Line_eq]
  refine Nat.mul_le_mul_left 40 (List.countP_le_length.trans ?_)
  rw [List.length_range]
  exact Nat.sub_le _ _

/-- The rows and the columns of a square are twice `side` lines of `side` modules. -/
theorem lines_of_square {side : Nat} {rows : List (List Bool)} (hrows : rows.length = side)
    (hcols : ∀ row ∈ rows, row.length = side) :
    (rows ++ columnsOf side rows).length = 2 * side ∧ ∀ line ∈ rows ++ columnsOf side rows, line.length = side := by
  rw [columnsOf_eq hcols false]
  refine ⟨by rw [List.length_append, List.length_map, List.length_range, hrows, Nat.two_mul], fun line hline => ?_⟩
  obtain hrow | hcol := List.mem_append.mp hline
  · exact hcols line hrow
  · obtain ⟨c, -, rfl⟩ := List.mem_map.mp hcol
    rw [List.length_map, hrows]

theorem sum_map_le {α : Type} {f : α → Nat} {bound : Nat} {l : List α} (h : ∀ x ∈ l, f x ≤ bound) :
    (l.map f).sum ≤ l.length * bound := by
  have := List.sum_le_card_nsmul (l.map f) bound (by simpa using h)
  rwa [List.length_map, smul_eq_mul] at this

theorem rule2_le {side : Nat} {rows : List (List Bool)} (hrows : rows.length = side)
    (hcols : ∀ row ∈ rows, row.length = side) : rule2 rows ≤ 3 * (side * side) := by
  rw [rule2_eq rows hcols]
  refine Nat.mul_le_mul_left 3 (List.countP_le_length.trans ?_)
  rw [length_flatMap_of_length (w := side - 1) fun r _ => by rw [List.length_map, List.length_range], List.length_range,
    hrows]
  exact Nat.mul_le_mul (Nat.sub_le _ _) (Nat.sub_le _ _)

theorem rule4_le {dk total : Nat} (h : dk ≤ total) : rule4 dk total ≤ 90 := by
  obtain rfl | hpos := Nat.eq_zero_or_pos total
  · simp [rule4]
  · rw [rule4_le_iff (k := 9) hpos, absDiff_le_iff]
    omega

/-- No score of a candidate of a symbol overflows its register. -/
theorem scoreOf_lt {side : Nat} {rows : List (List Bool)} (hside : side ≤ 177) (hrows : rows.length = side)
    (hcols : ∀ row ∈ rows, row.length = side) :
    (scoreOf side rows).total < 2 ^ 32 ∧ (scoreOf side rows).dark < 2 ^ 32 := by
  have harea : side * side ≤ 31329 := Nat.mul_le_mul hside hside
  obtain ⟨hcount, hlines⟩ := lines_of_square hrows hcols
  have hp1 : (scoreOf side rows).p1 ≤ 2 * side * side := by
    rw [← hcount]
    exact sum_map_le fun line hline => (rule1Line_le line).trans_eq (hlines line hline)
  have hp3 : (scoreOf side rows).p3 ≤ 2 * side * (40 * side) := by
    rw [← hcount]
    exact sum_map_le fun line hline => (rule3Line_le line).trans_eq (by rw [hlines line hline])
  have hdark : (scoreOf side rows).dark ≤ side * side := by
    conv_rhs => rw [← hrows]
    exact sum_map_le fun row hrow => List.count_le_length.trans_eq ((hcols row hrow).trans hrows.symm)
  have hp2 : (scoreOf side rows).p2 ≤ 3 * (side * side) := rule2_le hrows hcols
  have hp4 : (scoreOf side rows).p4 ≤ 90 := rule4_le hdark
  have hwide : 2 * side * (40 * side) = 80 * (side * side) := by ring
  rw [Nat.mul_assoc] at hp1
  unfold Score.total
  omega

/-! ### The registers QR.EVAL writes (44_mask.md R230 to R233) -/

/-- `results` hold the evaluation of eight lanes whose scores are `score`. -/
structure Evaluates (score : Nat → Score) (results : Scores) : Prop where
  pen : ∀ (k : Nat) (hk : k < 8), results.pen[k].toNat = (score k).total
  p1 : results.selp[0].toNat = (score results.mask.toNat).p1
  p2 : results.selp[1].toNat = (score results.mask.toNat).p2
  p3 : results.selp[2].toNat = (score results.mask.toNat).p3
  p4 : results.selp[3].toNat = (score results.mask.toNat).p4
  dark : results.seldark.toNat = (score results.mask.toNat).dark
  le : ∀ k < 8, (score results.mask.toNat).total ≤ (score k).total
  first : ∀ k < results.mask.toNat, (score results.mask.toNat).total < (score k).total

theorem scoresOf_pen (lanes : List Score) : ∀ (k : Nat) (hk : k < 8),
    (scoresOf lanes).pen[k] = BitVec.ofNat 32 ((lanes.map Score.total).getD k 0)
  | 0, _ | 1, _ | 2, _ | 3, _ | 4, _ | 5, _ | 6, _ | 7, _ => rfl

theorem evaluates_scoresOf {score : Nat → Score} (hfit : ∀ k < 8, (score k).total < 2 ^ 32 ∧ (score k).dark < 2 ^ 32) :
    Evaluates score (scoresOf ((List.range 8).map score)) := by
  have htotal {k : Nat} (hk : k < 8) : (((List.range 8).map score).map Score.total).getD k 0 = (score k).total := by
    simp [hk]
  obtain ⟨hlt, hle, hfirst⟩ := firstLeast_selectMask (((List.range 8).map score).map Score.total)
  simp only [List.length_map, List.length_range] at hlt hle
  generalize hsel : selectMask (((List.range 8).map score).map Score.total) = sel at hlt hle hfirst
  have hsel8 : sel < 8 := hlt
  have hbest : ((List.range 8).map score).getD sel ⟨0, 0, 0, 0, 0⟩ = score sel := by simp [hsel8]
  have hmask : (scoresOf ((List.range 8).map score)).mask.toNat = sel := by
    simp only [scoresOf, hsel, BitVec.toNat_ofNat]
    exact Nat.mod_eq_of_lt hsel8
  obtain ⟨hfits, hdark⟩ := hfit sel hsel8
  rw [Score.total] at hfits
  have hword {n : Nat} (hn : n < 2 ^ 32) : (BitVec.ofNat 32 n).toNat = n := Nat.mod_eq_of_lt hn
  constructor
  case pen => exact fun k hk => by rw [scoresOf_pen _ k hk, htotal hk, hword (hfit k hk).1]
  case le => exact fun k hk => by rw [hmask, ← htotal hsel8, ← htotal hk]; exact hle k hk
  case first =>
    intro k hk
    rw [hmask] at hk ⊢
    rw [← htotal hsel8, ← htotal (hk.trans hsel8)]
    exact hfirst k hk
  all_goals
    rw [hmask]
    simp only [scoresOf, hsel, hbest]
    exact hword (by omega)

/-- QR.EVAL on the matrix of a symbol. -/
theorem evaluates_laneScores {side : Nat} {m : Matrix} (hside : side ≤ 177) (h : m.Square side) :
    Evaluates (fun k => scoreOf side (candidate k m)) (scoresOf (laneScores side m)) :=
  evaluates_scoresOf fun k _ => scoreOf_lt hside (h.candidate k).1 (h.candidate k).2

/-- Settles O43: the eight lanes, each of whose scores fits its register. -/
theorem qrEvalScoresAndSelects : Obligations.QrEvalScoresAndSelects := by
  unfold Obligations.QrEvalScoresAndSelects
  rintro s side m score hphase rfl hside hm rfl
  have hrows : s.matrixRows = m := by rw [State.matrixRows, readBlock_eq_map, hm]
  obtain ⟨t, hexec, ht⟩ := exists_exec_of_effect (Effect.qrEval hphase (overrun?_matrixReach hside))
  have hscores : t.scores = scoresOf (laneScores s.params.side.toNat m) := by rw [ht, ← hrows]
  obtain ⟨hpen, hp1, hp2, hp3, hp4, hdark, hle, hfirst⟩ := evaluates_laneScores hside (hrows ▸ square_matrixRows s)
  rw [← hscores] at hpen hp1 hp2 hp3 hp4 hdark hle hfirst
  have hmask : (readCsr .mask t).toNat = t.scores.mask.toNat := by
    rw [readCsr, regField_zero, BitVec.toNat_setWidth_of_le (by decide)]
  exact ⟨t, _, hexec, by rw [ht], fun k => hpen k.val k.isLt, hmask.symm, hp1, hp2, hp3, hp4, hdark,
    fun k => ⟨hle k.val k.isLt, hfirst k.val⟩⟩

end Sys2Proof.Machine

namespace Sys2Proof.Machine

/-! ### The value of each function pattern (43_matrix.md R193 to R197) -/

theorem chebyshev_le_iff {a b r c k : Nat} : chebyshev a b r c ≤ k ↔ absDiff r a ≤ k ∧ absDiff c b ≤ k :=
  max_le_iff

/-- The centres of the finder patterns (R193). -/
def finderCentres (s : Nat) : List (Nat × Nat) :=
  [(3, 3), (3, s - 4), (s - 4, 3)]

theorem finderPattern_of_near {s r c : Nat} {p : Nat × Nat} (hs : 21 ≤ s) (hp : p ∈ finderCentres s)
    (hnear : chebyshev p.1 p.2 r c ≤ 4) : finderPattern s r c = some (funcCell (chebyshev p.1 p.2 r c ∉ [2, 4])) := by
  obtain ⟨hr, hc⟩ := chebyshev_le_iff.mp hnear
  have hspaced : [3, s - 4].Pairwise fun a b => a + 2 * 4 < b := by
    simp only [List.pairwise_cons, List.mem_singleton, forall_eq, List.not_mem_nil, false_implies, implies_true,
      List.Pairwise.nil, and_true]
    omega
  have hcorner : p.1 ∈ [3, s - 4] ∧ p.2 ∈ [3, s - 4] ∧ (p.1 = 3 ∨ p.2 = 3) := by
    simp only [finderCentres, List.mem_cons, List.not_mem_nil, or_false] at hp
    obtain rfl | rfl | rfl := hp <;> simp
  obtain ⟨hrow, hcol, hfirst⟩ := hcorner
  rw [finderPattern, (nearCentre?_eq_some_iff hspaced).mpr ⟨hrow, hr⟩, (nearCentre?_eq_some_iff hspaced).mpr ⟨hcol, hc⟩]
  simp [hfirst]

theorem finderPattern_eq_none_iff_far {s r c : Nat} (hs : 21 ≤ s) (hr : r < s) (hc : c < s) :
    finderPattern s r c = none ↔ ∀ p ∈ finderCentres s, 4 < chebyshev p.1 p.2 r c := by
  simp only [finderCentres, List.forall_mem_cons, List.not_mem_nil, false_implies, implies_true, and_true, ← not_le,
    chebyshev_le_iff, absDiff_le_iff, finderPattern_eq_none_iff hs hr hc]
  omega

theorem alignCentres_even : ∀ v ≤ 40, ∀ a ∈ alignCentres v, a % 2 = 0 := by decide

theorem nearCentre?_alignCentres {v x a : Nat} (h40 : v ≤ 40) :
    nearCentre? 2 (alignCentres v) x = some a ↔ a ∈ alignCentres v ∧ absDiff x a ≤ 2 :=
  nearCentre?_eq_some_iff (alignCentres_spaced v h40)

/-- The pairs of centres that have an alignment pattern (R197). -/
def alignPairs (v s : Nat) : List (Nat × Nat) :=
  ((alignCentres v).flatMap fun a => (alignCentres v).map fun b => (a, b)).filter fun p =>
    p ∉ [(6, 6), (6, s - 7), (s - 7, 6)]

theorem mem_alignPairs {v : Nat} (h1 : 1 ≤ v) (h40 : v ≤ 40) (a b : Nat) :
    (a, b) ∈ alignPairs v (sideOf v) ↔
      a ∈ alignCentres v ∧ b ∈ alignCentres v ∧ ¬ overFinder (alignCentres v) a b := by
  obtain rfl | h2 : v = 1 ∨ 2 ≤ v := by omega
  · simp [alignPairs, alignCentres, alignTableLow]
  · rw [overFinder_alignCentres_iff h2 h40]
    simp [alignPairs, and_assoc, imp_iff_not_or]

theorem alignmentPattern_of_near {v r c : Nat} {p : Nat × Nat} (h1 : 1 ≤ v) (h40 : v ≤ 40)
    (hp : p ∈ alignPairs v (sideOf v)) (hnear : chebyshev p.1 p.2 r c ≤ 2) :
    alignmentPattern (alignCentres v) r c = some (funcCell (chebyshev p.1 p.2 r c ≠ 1)) := by
  obtain ⟨hrow, hcol, hover⟩ := (mem_alignPairs h1 h40 p.1 p.2).mp hp
  obtain ⟨hr, hc⟩ := chebyshev_le_iff.mp hnear
  rw [alignmentPattern, (nearCentre?_alignCentres h40).mpr ⟨hrow, hr⟩, (nearCentre?_alignCentres h40).mpr ⟨hcol, hc⟩]
  exact if_neg hover

theorem alignmentPattern_eq_none_iff_far {v r c : Nat} (h1 : 1 ≤ v) (h40 : v ≤ 40) :
    alignmentPattern (alignCentres v) r c = none ↔ ∀ p ∈ alignPairs v (sideOf v), 2 < chebyshev p.1 p.2 r c := by
  simp only [alignmentPattern_eq_none_iff, nearCentre?_alignCentres h40, Prod.forall, mem_alignPairs h1 h40, ← not_le,
    chebyshev_le_iff]
  constructor
  · rintro h a b ⟨ha, hb, hover⟩ ⟨hra, hcb⟩
    exact hover (h a b ⟨ha, hra⟩ ⟨hb, hcb⟩)
  · rintro h a b ⟨ha, hra⟩ ⟨hb, hcb⟩
    by_contra hover
    exact h a b ⟨ha, hb, hover⟩ ⟨hra, hcb⟩

/-- An alignment pattern at a module has a centre near it. -/
theorem exists_alignPair_of_ne_none {v r c : Nat} (h1 : 1 ≤ v) (h40 : v ≤ 40)
    (h : alignmentPattern (alignCentres v) r c ≠ none) :
    ∃ p ∈ alignPairs v (sideOf v), chebyshev p.1 p.2 r c ≤ 2 := by
  simpa only [Ne, alignmentPattern_eq_none_iff_far h1 h40, not_forall, not_lt, exists_prop] using h

/-- The only centre near a line up to 8 is the first. -/
theorem eq_six_of_near {v x a : Nat} (h1 : 1 ≤ v) (h40 : v ≤ 40) (ha : a ∈ alignCentres v) (hnear : absDiff x a ≤ 2)
    (hx : x ≤ 8) : a = 6 := by
  obtain rfl | h2 : v = 1 ∨ 2 ≤ v := by omega
  · simp [alignCentres, alignTableLow] at ha
  rw [alignCentres_eq_cons v h40 h2] at ha
  obtain rfl | hlater := List.mem_cons.mp ha
  · rfl
  · have := laterCentres_ge v h40 a hlater
    rw [absDiff_le_iff] at hnear
    omega

/-- Timing and alignment patterns agree on the modules of both, for every centre is even. -/
theorem near_even_iff {x b : Nat} (hb : b % 2 = 0) (hnear : absDiff x b ≤ 2) : absDiff x b ≠ 1 ↔ x % 2 = 0 := by
  unfold absDiff at *
  omega

/-- Row 6 and column 6 between the finders, where an alignment pattern may lie over the timing pattern. -/
theorem drawnPattern_of_timing {v r c : Nat} {cell : Byte} (h1 : 1 ≤ v) (h40 : v ≤ 40)
    (htiming : timingPattern (sideOf v) r c = some cell)
    (halign : ∀ a ∈ alignCentres v, ∀ b ∈ alignCentres v, absDiff r a ≤ 2 → absDiff c b ≤ 2 →
      funcCell (chebyshev a b r c ≠ 1) = cell) : drawnPattern v (sideOf v) r c = some cell := by
  by_cases hnone : alignmentPattern (alignCentres v) r c = none
  · rw [drawnPattern, hnone, htiming]
    rfl
  · obtain ⟨p, hp, hnear⟩ := exists_alignPair_of_ne_none h1 h40 hnone
    obtain ⟨hrow, hcol, -⟩ := (mem_alignPairs h1 h40 p.1 p.2).mp hp
    obtain ⟨hr, hc⟩ := chebyshev_le_iff.mp hnear
    rw [drawnPattern, alignmentPattern_of_near h1 h40 hp hnear, halign p.1 hrow p.2 hcol hr hc]
    rfl

theorem drawnPattern_timingRow {v c : Nat} (h1 : 1 ≤ v) (h40 : v ≤ 40) (h8 : 8 ≤ c) (h9 : c + 9 ≤ sideOf v) :
    drawnPattern v (sideOf v) 6 c = some (funcCell (c % 2 = 0)) := by
  refine drawnPattern_of_timing h1 h40 (by rw [timingPattern, if_pos ⟨rfl, h8, h9⟩]) fun a ha b hb hra hcb => ?_
  obtain rfl := eq_six_of_near h1 h40 ha hra (by decide)
  have hdist : chebyshev 6 b 6 c = absDiff c b := Nat.zero_max _
  simp only [hdist, near_even_iff (alignCentres_even v h40 b hb) hcb]

theorem drawnPattern_timingColumn {v r : Nat} (h1 : 1 ≤ v) (h40 : v ≤ 40) (h8 : 8 ≤ r) (h9 : r + 9 ≤ sideOf v) :
    drawnPattern v (sideOf v) r 6 = some (funcCell (r % 2 = 0)) := by
  refine drawnPattern_of_timing h1 h40 (by rw [timingPattern, if_neg (by omega), if_pos ⟨rfl, h8, h9⟩])
    fun a ha b hb hra hcb => ?_
  obtain rfl := eq_six_of_near h1 h40 hb hcb (by decide)
  have hdist : chebyshev a 6 r 6 = absDiff r a := Nat.max_zero _
  simp only [hdist, near_even_iff (alignCentres_even v h40 a ha) hra]

/-- The modules of a finder and its separator belong to no other pattern. -/
theorem drawnPattern_of_finder {v r c : Nat} {cell : Byte} (h1 : 1 ≤ v) (h40 : v ≤ 40) (hr : r < sideOf v)
    (hc : c < sideOf v) (h : finderPattern (sideOf v) r c = some cell) : drawnPattern v (sideOf v) r c = some cell := by
  have hs := sideOf_ge h1
  have hcorner : ¬ finderPattern (sideOf v) r c = none := by rw [h]; simp
  rw [finderPattern_eq_none_iff hs hr hc] at hcorner
  have hrow := range_of_mem_inner (x := r) h40
  have hcol := range_of_mem_inner (x := c) h40
  have halign : alignmentPattern (alignCentres v) r c = none := by
    rw [alignmentPattern_alignCentres_eq_none_iff h1 h40, mem_later_iff h1 h40, mem_later_iff h1 h40]
    grind
  have htiming : timingPattern (sideOf v) r c = none := by
    rw [timingPattern_eq_none_iff]
    omega
  rw [drawnPattern, halign, htiming, h]
  rfl

/-- No drawn pattern lies on an information cell or on the dark module. -/
theorem cell_functionMatrix_of_drawn {v r c : Nat} {cell : Byte} (h1 : 1 ≤ v) (h40 : v ≤ 40) (hr : r < sideOf v)
    (hc : c < sideOf v) (h : drawnPattern v (sideOf v) r c = some cell) :
    (functionMatrix v (sideOf v)).cell r c = cell := by
  have hs := sideOf_ge h1
  have h7 : 7 ≤ v → 45 ≤ sideOf v := sideOf_ge_of_seven_le
  have h2 : 2 ≤ v → 25 ≤ sideOf v := by unfold sideOf; omega
  have hdrawn : ¬ drawnPattern v (sideOf v) r c = none := by rw [h]; simp
  rw [drawnPattern_eq_none_iff, alignmentPattern_alignCentres_eq_none_iff h1 h40, timingPattern_eq_none_iff,
    finderPattern_eq_none_iff hs hr hc, mem_later_iff h1 h40, mem_later_iff h1 h40] at hdrawn
  have hrow := range_of_mem_inner (x := r) h40
  have hcol := range_of_mem_inner (x := c) h40
  have hinfo : (r, c) ∉ infoCells v (sideOf v) := by
    rw [mem_infoCells hs hr hc]
    grind
  have hdark : (r, c) ≠ (sideOf v - 8, 8) := by
    rw [Ne, Prod.mk.injEq]
    grind
  rw [cell_functionMatrix hs hr hc, if_neg hinfo, if_neg hdark, h]
  rfl

theorem cell_functionMatrix_dark {v s : Nat} (hs : 21 ≤ s) : (functionMatrix v s).cell (s - 8) 8 = funcCell true := by
  have hinfo : (s - 8, 8) ∉ infoCells v s := by
    rw [mem_infoCells hs (by omega) (by omega)]
    omega
  rw [cell_functionMatrix hs (by omega) (by omega), if_neg hinfo, if_pos rfl]

/-- Away from every finder, a module of row 6 or column 6 is a timing module (R195). -/
theorem timingPattern_eq_none_iff_of_finder {s r c : Nat} (hs : 21 ≤ s) (hr : r < s) (hc : c < s)
    (h : finderPattern s r c = none) : timingPattern s r c = none ↔ r ≠ 6 ∧ c ≠ 6 := by
  rw [finderPattern_eq_none_iff hs hr hc] at h
  rw [timingPattern_eq_none_iff]
  omega

/-- Settles O29: at each module the one pattern that lies there, timing and alignment agreeing where they meet. -/
theorem functionPatternsStandWhereStated : Obligations.FunctionPatternsStandWhereStated := by
  unfold Obligations.FunctionPatternsStandWhereStated
  intro v s r c cell centres finders aligns h1 h40 hsv hr hc hcell hcentres hfinders haligns
  subst hsv hcell hcentres hfinders haligns
  have hs := sideOf_ge h1
  refine ⟨fun p hp hnear => ?_, ?_, ?_, fun p hp hnear => ?_, ?_, ?_, ?_⟩
  · exact cell_functionMatrix_of_drawn h1 h40 hr hc (drawnPattern_of_finder h1 h40 hr hc (finderPattern_of_near hs hp hnear))
  · rintro rfl h8 h9
    exact cell_functionMatrix_of_drawn h1 h40 hr hc (drawnPattern_timingRow h1 h40 h8 (by omega))
  · rintro rfl h8 h9
    exact cell_functionMatrix_of_drawn h1 h40 hr hc (drawnPattern_timingColumn h1 h40 h8 (by omega))
  · refine cell_functionMatrix_of_drawn h1 h40 hr hc ?_
    rw [drawnPattern, alignmentPattern_of_near h1 h40 hp hnear]
    rfl
  · rintro rfl rfl
    exact cell_functionMatrix_dark hs
  · exact (cell_functionMatrix_eq_reserved_iff hs hr hc).symm
  · rw [cell_functionMatrix_eq_unset_iff hs hr hc, drawnPattern_eq_none_iff, alignmentPattern_eq_none_iff_far h1 h40,
      Ne, Prod.mk.injEq]
    constructor
    · rintro ⟨hinfo, hdark, halign, htiming, hfinder⟩
      obtain ⟨hr6, hc6⟩ := (timingPattern_eq_none_iff_of_finder hs hr hc hfinder).mp htiming
      exact ⟨(finderPattern_eq_none_iff_far hs hr hc).mp hfinder, halign, hr6, hc6, hdark, hinfo⟩
    · rintro ⟨hfar, halign, hr6, hc6, hdark, hinfo⟩
      have hfinder := (finderPattern_eq_none_iff_far hs hr hc).mpr hfar
      exact ⟨hinfo, hdark, halign, (timingPattern_eq_none_iff_of_finder hs hr hc hfinder).mpr ⟨hr6, hc6⟩, hfinder⟩

end Sys2Proof.Machine

namespace Sys2Proof.Machine

/-! ### What each kind of step keeps -/

/-- What neither the host, but for a soft reset, nor a completion report changes: the registers the commands own and every
buffer but BITS and RSIN (10_state.md R51, 20_memory.md R77). -/
structure CoreKept (s t : State) : Prop where
  phase : t.phase = s.phase
  params : t.params = s.params
  scores : t.scores = s.scores
  format : t.format = s.format
  verinfo : t.verinfo = s.verinfo
  genv : t.genv = s.genv
  rsv : t.rsv = s.rsv
  eccount : t.eccount = s.eccount
  get : ∀ b : Buf, b ≠ .bits → b ≠ .rsin → t.bufs.get b = s.bufs.get b
  powerOns : t.powerOns = s.powerOns
  resets : t.resets = s.resets

theorem CoreKept.readByte {s t : State} (h : CoreKept s t) {b : Buf} (hbits : b ≠ .bits) (hrsin : b ≠ .rsin) (i : Nat) :
    t.readByte b i = s.readByte b i :=
  State.readByte_congr (h.get b hbits hrsin) h.powerOns h.resets i

theorem coreKept_writeByte {b : Buf} (hb : b.hostWritable = true) (i : Nat) (v : Byte) (s : State) :
    CoreKept s (s.writeByte b i v) := by
  refine ⟨rfl, rfl, rfl, rfl, rfl, rfl, rfl, rfl, fun c hbits hrsin => Buffers.get_set_other _ _ ?_, rfl, rfl⟩
  rintro rfl
  exact ((Buf.hostWritable_iff c).mp hb).elim hbits hrsin

theorem coreKept_writeCsr {r : Csr} {w : Word} (h : r = .ctrl → w.getLsbD 0 = false) (s : State) :
    CoreKept s (writeCsr r w s) := by
  cases r
  case ctrl =>
    rw [writeCsr_ctrl_of_clear (h rfl)]
    exact ⟨rfl, rfl, rfl, rfl, rfl, rfl, rfl, rfl, fun _ _ _ => rfl, rfl, rfl⟩
  all_goals exact ⟨rfl, rfl, rfl, rfl, rfl, rfl, rfl, rfl, fun _ _ _ => rfl, rfl, rfl⟩

theorem coreKept_settle (code : BitVec 8) (s : State) : CoreKept s (s.settle code) :=
  ⟨rfl, rfl, rfl, rfl, rfl, rfl, rfl, rfl, fun _ _ _ => rfl, rfl, rfl⟩

theorem coreKept_agenda (turns : List Turn) (s : State) : CoreKept s { s with agenda := turns } :=
  ⟨rfl, rfl, rfl, rfl, rfl, rfl, rfl, rfl, fun _ _ _ => rfl, rfl, rfl⟩

theorem coreKept_rejectAccess (e : AccError) (k : AccessKind) (s : State) : CoreKept s (rejectAccess e k s) :=
  ⟨rfl, rfl, rfl, rfl, rfl, rfl, rfl, rfl, fun _ _ _ => rfl, rfl, rfl⟩

theorem coreKept_accessPort {k : AccessKind} {w : Word} {s t : State} (h : accessPort k w s = .next t) : CoreKept s t := by
  obtain ⟨e, -, rfl⟩ | ⟨b, -, -, -, rfl⟩ | ⟨b, hb, -, rfl, rfl⟩ := accessPort_cases h
  · exact ⟨rfl, rfl, rfl, rfl, rfl, rfl, rfl, rfl, fun _ _ _ => rfl, rfl, rfl⟩
  · exact ⟨rfl, rfl, rfl, rfl, rfl, rfl, rfl, rfl, fun _ _ _ => rfl, rfl, rfl⟩
  · obtain ⟨_, _, _, _, _, _, _, _, hget, _, _⟩ := coreKept_writeByte (hostWritable_of_portCheck hb) s.bufAddr.toNat
      (w.setWidth 8) s
    exact ⟨rfl, rfl, rfl, rfl, rfl, rfl, rfl, rfl, hget, rfl, rfl⟩

theorem coreKept_access {a : Access} {s t : State} (hs : a.isSoftReset = false) (h : access a s = .next t) : CoreKept s t := by
  obtain ⟨e, rfl⟩ | ⟨-, hp⟩ | ⟨r, rfl⟩ | ⟨r, -, hclear, rfl⟩ := access_cases_of_not_isSoftReset hs h
  · exact coreKept_rejectAccess e _ s
  · exact coreKept_accessPort hp
  · exact ⟨rfl, rfl, rfl, rfl, rfl, rfl, rfl, rfl, fun _ _ _ => rfl, rfl, rfl⟩
  · exact coreKept_writeCsr hclear s

/-- The registers the commands own, as either reset leaves them (10_state.md R63). -/
structure Cleared (s : State) : Prop where
  phase : s.phase = .unsegmented
  params : s.params = Params.zero
  scores : s.scores = Scores.zero
  format : s.format = 0
  verinfo : s.verinfo = 0
  genv : s.genv = false
  rsv : s.rsv = false
  eccount : s.eccount = 0

theorem cleared_reset : Cleared State.reset := ⟨rfl, rfl, rfl, rfl, rfl, rfl, rfl, rfl⟩

theorem cleared_hardReset (s : State) : Cleared (hardReset s) := ⟨rfl, rfl, rfl, rfl, rfl, rfl, rfl, rfl⟩

theorem cleared_softReset (s : State) : Cleared (softReset s) := ⟨rfl, rfl, rfl, rfl, rfl, rfl, rfl, rfl⟩

/-- `P` passes every kind of step; a command that succeeds may also use `Q` of the state it starts from. -/
structure Preserved (Q P : State → Prop) : Prop where
  agenda : ∀ {s : State} (turns : List Turn), P s → P { s with agenda := turns }
  reset : ∀ {s : State}, P s → P (hardReset s) ∧ P (softReset s)
  access : ∀ {a : Access} {s t : State}, a.isSoftReset = false → P s → Machine.access a s = .next t → P t
  settle : ∀ {s : State} (code : BitVec 8), code.toNat ≤ 9 → P s → P (s.settle code)
  effect : ∀ {i : Instr} {s u : State}, Q s → P s → Effect i s u → P u
  mismatch : ∀ {s : State}, s.phase = .assembled → P s → P { s with phase := .fault }

section
variable {Q P : State → Prop}

theorem Preserved.exec (h : Preserved Q P) {i : Instr} {s t : State} (hq : Q s) (hp : P s) (hexec : exec i s = .next t) :
    P t := by
  obtain ⟨u, hu, rfl⟩ | ⟨⟨e, -⟩ | ⟨hphase⟩⟩ := exec_cases hexec
  · exact h.settle 0 (by decide) (h.effect hq hp hu)
  · exact h.settle _ (CmdError.code_le e) hp
  · exact h.settle 5 (by decide) (h.mismatch hphase hp)

theorem Preserved.coreTurn (h : Preserved Q P) {s t : State} (hq : Q s) (hp : P s) (hturn : coreTurn s = .next t) : P t := by
  cases hl : s.latch with
  | none =>
    rw [coreTurn_of_idle hl] at hturn
    cases hturn
    exact hp
  | some w =>
    rw [coreTurn_of_pending hl] at hturn
    obtain ⟨i, -, hexec⟩ | ⟨-, rfl⟩ := complete_cases hturn
    · exact h.exec hq hp hexec
    · exact h.settle 1 (by decide) hp

theorem Preserved.step (h : Preserved Q P) {s t : State} (hq : Q { s with agenda := s.agenda.tail }) (hp : P s)
    (hstep : step s = .next t) : P t := by
  obtain hc | hr | ⟨a, rest, ha, hs⟩ := turn_cases s
  · rw [step_of_coreNext hc] at hstep
    exact h.coreTurn hq (h.agenda _ hp) hstep
  · obtain ⟨rest, hreset | hreset⟩ := step_of_resetNext hr <;> cases hreset.symm.trans hstep
    · exact (h.reset (h.agenda rest hp)).1
    · exact (h.reset (h.agenda rest hp)).2
  · rw [step_of_agenda_cons hs] at hstep
    exact h.access ha (h.agenda rest hp) hstep

/-- What speaks only of what the commands own needs no look at the host. -/
theorem Preserved.of_coreKept (hkept : ∀ {s t : State}, CoreKept s t → P s → P t) (hcleared : ∀ {s : State}, Cleared s → P s)
    (heffect : ∀ {i : Instr} {s u : State}, Q s → P s → Effect i s u → P u)
    (hmismatch : ∀ {s : State}, s.phase = .assembled → P s → P { s with phase := .fault }) : Preserved Q P where
  agenda turns hp := hkept (coreKept_agenda turns _) hp
  reset _ := ⟨hcleared (cleared_hardReset _), hcleared (cleared_softReset _)⟩
  access hs hp h := hkept (coreKept_access hs h) hp
  settle code _ hp := hkept (coreKept_settle code _) hp
  effect := heffect
  mismatch := hmismatch

end

/-! ### The buffers (10_state.md R51) -/

theorem length_data_assemble {p : Params} {stream : List Bool} (h : stream.length ≤ 8 * p.ndata.toNat) :
    (assemble p stream).data.length = p.ndata.toNat :=
  length_padStream h

/-- Each block adds as many EC codewords (42_assemble.md R167). -/
theorem length_ecc_assemble (p : Params) (stream : List Bool) :
    (assemble p stream).ecc.length = p.nb.toNat * p.ecb.toNat := by
  have hblocks : ∀ ec ∈ (splitBlocks (blockLengths p.nb.toNat p.nshort.toNat p.dshort.toNat)
      (padStream stream p.ndata.toNat)).map (fun block => rsRem block p.ecb.toNat), ec.length = p.ecb.toNat := by
    simp only [List.forall_mem_map, length_rsRem, implies_true]
  calc (assemble p stream).ecc.length
    _ = _ := by rw [assemble, ← List.flatMap_id, length_flatMap_of_length (f := id) hblocks]
    _ = p.nb.toNat * p.ecb.toNat := by
      rw [List.length_map, length_splitBlocks, blockLengths, List.length_map, List.length_range]

theorem square_loaded_finalMatrix (s : State) (fw : BitVec 15) :
    (finalMatrix s.params.version.toNat s.params.side.toNat s.scores.mask.toNat fw s.matrixRows).Square
      s.params.side.toNat :=
  (square_matrixRows s).finalMatrix _ _ _

/-- Every load of a command fits its buffer. -/
theorem buffersCanonical_of_effect {i : Instr} {s u : State} (hp : BuffersCanonical s) (hu : Effect i s u) :
    BuffersCanonical u := by
  cases hu with
  | nop | gfMul | gfPow | gfExp | gfLog | qrBegin | qrEval => exact hp
  | rsGen hn => exact Buffers.wf_load hp (by rw [length_genPoly]; exact Nat.succ_le_succ hn)
  | rsDiv hn =>
    exact Buffers.wf_load (Buffers.wf_load hp (by rwa [length_rsRem])) (by rw [length_genPoly]; exact Nat.succ_le_succ hn)
  | qrAsm _ hlen hreach =>
    simp only [overrun?_eq_none_iff, asmReach, List.forall_mem_cons] at hreach
    obtain ⟨-, hdata, hecc, hcw, -⟩ := hreach
    refine Buffers.wf_load (Buffers.wf_load (Buffers.wf_load hp ?_) ?_) hcw
    · rwa [length_data_assemble (by rwa [length_segmentStream])]
    · rwa [length_ecc_assemble]
  | qrBuild _ _ hreach =>
    simp only [overrun?_eq_none_iff, buildReach, List.forall_mem_cons] at hreach
    obtain ⟨-, hmatrix, -⟩ := hreach
    exact Buffers.wf_load hp (by rwa [(square_buildMatrix _ _ _).length_flatten])
  | qrFinal _ hreach =>
    simp only [overrun?_eq_none_iff, matrixReach, List.forall_mem_cons] at hreach
    exact Buffers.wf_load hp (by rw [(square_loaded_finalMatrix s _).length_flatten]; exact hreach.1)

theorem buffersCanonical_access {a : Access} {s t : State} (hs : a.isSoftReset = false) (hp : BuffersCanonical s)
    (h : access a s = .next t) : BuffersCanonical t := by
  obtain ⟨e, rfl⟩ | ⟨-, hport⟩ | ⟨r, rfl⟩ | ⟨r, -, hclear, rfl⟩ := access_cases_of_not_isSoftReset hs h
  · exact hp
  · obtain ⟨e, -, rfl⟩ | ⟨b, -, -, -, rfl⟩ | ⟨b, -, hcap, -, rfl⟩ := accessPort_cases hport
    · exact hp
    · exact hp
    · exact Buffers.wf_insert hp _ hcap
  · exact hp
  · intro b
    rw [(bufs_writeCsr hclear s).1]
    exact hp b

theorem buffersCanonical_softReset {s : State} (hp : BuffersCanonical s) : BuffersCanonical (softReset s)
  | .bits => hp .bits
  | .rsin => hp .rsin
  | .data | .ecc | .cw | .matrix | .rsout | .gen => rfl

theorem preserved_buffersCanonical : Preserved (fun _ => True) BuffersCanonical where
  agenda _ hp := hp
  reset hp := ⟨reset_buffers_wf, buffersCanonical_softReset hp⟩
  access := buffersCanonical_access
  settle _ _ hp := hp
  effect _ := buffersCanonical_of_effect
  mismatch _ hp := hp

/-- Settles O57. -/
theorem stepKeepsBuffersCanonical : Obligations.StepKeepsBuffersCanonical := by
  unfold Obligations.StepKeepsBuffersCanonical
  exact fun s t => preserved_buffersCanonical.step trivial

/-! ### The symbol parameters (42_assemble.md R160) -/

theorem paramsAgree_of_coreKept {s t : State} (h : CoreKept s t) (hp : ParamsAgree s) : ParamsAgree t := by
  rwa [ParamsAgree, h.phase, h.params]

/-- QR.BEGIN sets legal parameters, and the other pipeline commands keep those of the symbol they work on. -/
theorem paramsAgree_of_effect {i : Instr} {s u : State} (hp : ParamsAgree s) (hu : Effect i s u) : ParamsAgree u := by
  cases hu with
  | nop | gfMul | gfPow | gfExp | gfLog | rsGen | rsDiv => exact hp
  | qrBegin h1 h40 he => exact .inr ⟨by simp, _, _, h1, h40, he, rfl⟩
  | qrAsm hphase | qrBuild hphase | qrEval hphase | qrFinal hphase =>
    exact .inr ⟨by simp, hp.legal (by rw [hphase]; decide)⟩

theorem preserved_paramsAgree : Preserved (fun _ => True) ParamsAgree :=
  .of_coreKept paramsAgree_of_coreKept (fun h => .inl ⟨h.phase, h.params⟩) (fun _ => paramsAgree_of_effect)
    fun hphase hp => .inr ⟨by simp, hp.legal (by rw [hphase]; decide)⟩

/-- Settles O58. -/
theorem stepKeepsParameters : Obligations.StepKeepsParameters := by
  unfold Obligations.StepKeepsParameters
  exact fun s t => preserved_paramsAgree.step trivial

end Sys2Proof.Machine

namespace Sys2Proof.Machine

/-! ### The latch and the codes (10_state.md R58, 60_exceptions.md R281, R290) -/

theorem latchAgrees_access {a : Access} {s t : State} (hs : a.isSoftReset = false) (hp : LatchAgrees s)
    (h : access a s = .next t) : LatchAgrees t := by
  obtain ⟨e, rfl⟩ | ⟨-, hport⟩ | ⟨r, rfl⟩ | ⟨r, -, hclear, rfl⟩ := access_cases_of_not_isSoftReset hs h
  · exact hp
  · obtain ⟨e, -, rfl⟩ | ⟨b, -, -, -, rfl⟩ | ⟨b, -, -, -, rfl⟩ := accessPort_cases hport <;> exact hp
  · exact hp
  · cases r
    case ctrl => rwa [writeCsr_ctrl_of_clear (hclear rfl)]
    case cmd => exact fun w hw => Option.some.inj hw
    all_goals exact hp

theorem preserved_latchAgrees : Preserved ParamsAgree LatchAgrees where
  agenda _ hp := hp
  reset _ := ⟨(fun _ h => nomatch h), (fun _ h => nomatch h)⟩
  access := latchAgrees_access
  settle _ _ _ := fun _ h => nomatch h
  effect _ hp hu := by cases hu <;> exact hp
  mismatch _ hp := hp

theorem codesDefined_rejectAccess (e : AccError) (k : AccessKind) {s : State} (hp : CodesDefined s) :
    CodesDefined (rejectAccess e k s) :=
  ⟨hp.1, AccError.code_le e, fun _ => AccError.code_ne_zero e⟩

theorem codesDefined_access {a : Access} {s t : State} (hs : a.isSoftReset = false) (hp : CodesDefined s)
    (h : access a s = .next t) : CodesDefined t := by
  obtain ⟨e, rfl⟩ | ⟨-, hport⟩ | ⟨r, rfl⟩ | ⟨r, -, hclear, rfl⟩ := access_cases_of_not_isSoftReset hs h
  · exact codesDefined_rejectAccess e _ hp
  · obtain ⟨e, -, rfl⟩ | ⟨b, -, -, -, rfl⟩ | ⟨b, -, -, -, rfl⟩ := accessPort_cases hport
    · exact codesDefined_rejectAccess (s := s) e a.kind hp
    · exact hp
    · exact hp
  · exact hp
  · cases r
    case ctrl => rwa [writeCsr_ctrl_of_clear (hclear rfl)]
    case status =>
      obtain ⟨herr, hacc, hflag⟩ := hp
      exact ⟨herr, hacc, fun hset => hflag (Bool.and_eq_true_iff.mp hset).1⟩
    all_goals exact hp

theorem codesDefined_zero : CodesDefined State.reset := ⟨by decide, by decide, fun h => nomatch h⟩

theorem preserved_codesDefined : Preserved ParamsAgree CodesDefined where
  agenda _ hp := hp
  reset _ := ⟨codesDefined_zero, codesDefined_zero⟩
  access := codesDefined_access
  settle _ hcode hp := ⟨hcode, hp.2⟩
  effect _ hp hu := by cases hu <;> exact hp
  mismatch _ hp := hp

/-! ### The generator (41_rs.md R145, R146) -/

theorem generatorAgrees_of_coreKept {s t : State} (h : CoreKept s t) (hp : GeneratorAgrees s) : GeneratorAgrees t := by
  simp only [GeneratorAgrees, h.eccount, h.rsv, h.genv, h.readByte (b := .gen) (by decide) (by decide)]
  exact hp

theorem generatorAgrees_of_cleared {s : State} (h : Cleared s) : GeneratorAgrees s := by
  simp [GeneratorAgrees, h.eccount, h.rsv, h.genv]

theorem toNat_degree {n : Nat} (hn : n ≤ maxEc) : (BitVec.ofNat 8 n).toNat = n :=
  Nat.mod_eq_of_lt (hn.trans_lt (by decide))

/-- A load of a generator polynomial makes GEN tell the truth about its degree. -/
theorem generatorAgrees_of_load {s t : State} {n : Nat} (hn : n ≤ maxEc)
    (hgen : t.bufs.get .gen = Memory.load (genPoly n) (s.bufs.get .gen)) (hpower : t.powerOns = s.powerOns)
    (hresets : t.resets = s.resets) (hcount : t.eccount = BitVec.ofNat 8 n) (hgenv : t.genv = true) : GeneratorAgrees t := by
  rw [GeneratorAgrees, hcount, toNat_degree hn]
  refine ⟨hn, fun _ => hgenv, fun _ k hk => readByte_of_lt_load hgen hpower hresets ?_⟩
  rw [length_genPoly]
  exact Nat.lt_succ_of_le hk

theorem generatorAgrees_of_effect {i : Instr} {s u : State} (hp : GeneratorAgrees s) (hu : Effect i s u) :
    GeneratorAgrees u := by
  cases hu with
  | rsGen hn | rsDiv hn => exact generatorAgrees_of_load (s := s) hn rfl rfl rfl rfl rfl
  | _ => exact hp

theorem preserved_generatorAgrees : Preserved ParamsAgree GeneratorAgrees :=
  .of_coreKept generatorAgrees_of_coreKept generatorAgrees_of_cleared (fun _ => generatorAgrees_of_effect) fun _ hp => hp

/-! ### The written results (10_state.md R52, R63) -/

theorem CoreKept.bufValid {s t : State} (h : CoreKept s t) (b : Buf) : t.bufValid b = s.bufValid b := by
  cases b <;> simp only [State.bufValid, h.phase, h.genv, h.rsv]

theorem CoreKept.bufExtent {s t : State} (h : CoreKept s t) (b : Buf) : t.bufExtent b = s.bufExtent b := by
  cases b <;> simp only [State.bufExtent, h.params, h.eccount]

theorem resultsWritten_of_coreKept {s t : State} (h : CoreKept s t) (hp : ResultsWritten s) : ResultsWritten t := by
  intro b hbits hrsin
  rw [h.bufValid, h.bufExtent, h.get b hbits hrsin]
  exact hp b hbits hrsin

theorem resultsWritten_of_cleared {s : State} (h : Cleared s) : ResultsWritten s := by
  intro b hbits hrsin hvalid
  have hnone : s.bufValid b = false := by
    cases b <;> simp_all [State.bufValid, h.phase, h.genv, h.rsv, Phase.hasCodewords, Phase.hasMatrix]
  rw [hnone] at hvalid
  cases hvalid

theorem isSome_get?_load {bytes : List Byte} {i : Nat} (m : Memory) (hi : i < bytes.length) :
    ((Memory.load bytes m).get? i).isSome = true := by
  rw [Memory.get?_load, if_pos hi, List.getElem?_eq_getElem hi]
  rfl

/-- Buffer `b` is readable in `s` and the same in `u`. -/
def StillValid (s u : State) (b : Buf) : Prop :=
  s.bufValid b = true ∧ u.bufExtent b = s.bufExtent b ∧ u.bufs.get b = s.bufs.get b

/-- The whole extent of buffer `b` has just been loaded. -/
def Loaded (s u : State) (b : Buf) : Prop :=
  ∃ bytes, u.bufs.get b = Memory.load bytes (s.bufs.get b) ∧ u.bufExtent b ≤ bytes.length

theorem ResultsWritten.of_loads {s u : State} (hp : ResultsWritten s)
    (h : ∀ b : Buf, b ≠ .bits → b ≠ .rsin → u.bufValid b = true → StillValid s u b ∨ Loaded s u b) :
    ResultsWritten u := by
  intro b hbits hrsin hvalid i hi
  obtain ⟨hbefore, hextent, hget⟩ | ⟨bytes, hget, hextent⟩ := h b hbits hrsin hvalid
  · rw [hget]
    exact hp b hbits hrsin hbefore i (hextent ▸ hi)
  · rw [hget]
    exact isSome_get?_load _ (hi.trans_le hextent)

/-- A command loads the whole extent of each buffer it makes readable. -/
theorem resultsWritten_of_effect {i : Instr} {s u : State} (hagree : ParamsAgree s) (hp : ResultsWritten s)
    (hu : Effect i s u) : ResultsWritten u := by
  cases hu with
  | nop | gfMul | gfPow | gfExp | gfLog => exact hp
  | rsGen hn =>
    refine hp.of_loads fun b hbits hrsin hvalid => ?_
    cases b
    case gen => exact .inr ⟨_, rfl, by simp only [State.bufExtent, toNat_degree hn, length_genPoly, le_refl]⟩
    case rsout => cases hvalid
    all_goals exact .inl ⟨hvalid, rfl, rfl⟩
  | rsDiv hn =>
    refine hp.of_loads fun b hbits hrsin hvalid => ?_
    cases b
    case gen => exact .inr ⟨_, rfl, by simp only [State.bufExtent, toNat_degree hn, length_genPoly, le_refl]⟩
    case rsout => exact .inr ⟨_, rfl, by simp only [State.bufExtent, toNat_degree hn, length_rsRem, le_refl]⟩
    all_goals exact .inl ⟨hvalid, rfl, rfl⟩
  | qrBegin =>
    refine hp.of_loads fun b hbits hrsin hvalid => ?_
    cases b
    case data | ecc | cw | matrix => cases hvalid
    all_goals exact .inl ⟨hvalid, rfl, rfl⟩
  | qrAsm hphase hlen =>
    obtain ⟨v, e, h1, h40, he, hparams⟩ := hagree.legal (by rw [hphase]; decide)
    have hfit : s.segmentStream.length ≤ 8 * s.params.ndata.toNat := by rwa [length_segmentStream]
    have hcw : (assemble s.params s.segmentStream).cw.length = s.params.ncw.toNat := by
      have hholds := paramsHold_paramsOf h1 h40 he
      rw [hparams, hholds.ndata] at hfit
      rw [hparams, hholds.ncw, length_cw_assemble h1 h40 he hfit]
    refine hp.of_loads fun b hbits hrsin hvalid => ?_
    cases b
    case data => exact .inr ⟨_, rfl, (length_data_assemble hfit).ge⟩
    case ecc => exact .inr ⟨_, rfl, (length_ecc_assemble _ _).ge⟩
    case cw => exact .inr ⟨_, rfl, hcw.ge⟩
    case matrix => cases hvalid
    all_goals exact .inl ⟨hvalid, rfl, rfl⟩
  | qrBuild hphase =>
    refine hp.of_loads fun b hbits hrsin hvalid => ?_
    cases b
    case matrix => exact .inr ⟨_, rfl, (square_buildMatrix _ _ _).length_flatten.ge⟩
    case rsout | gen => exact .inl ⟨hvalid, rfl, rfl⟩
    all_goals exact .inl ⟨by simp only [State.bufValid, hphase, Phase.hasCodewords], rfl, rfl⟩
  | qrEval hphase =>
    refine hp.of_loads fun b hbits hrsin hvalid => ?_
    cases b
    case rsout | gen => exact .inl ⟨hvalid, rfl, rfl⟩
    all_goals exact .inl ⟨by simp only [State.bufValid, hphase, Phase.hasCodewords, Phase.hasMatrix], rfl, rfl⟩
  | qrFinal hphase =>
    refine hp.of_loads fun b hbits hrsin hvalid => ?_
    cases b
    case matrix => exact .inr ⟨_, rfl, (square_loaded_finalMatrix s _).length_flatten.ge⟩
    case rsout | gen => exact .inl ⟨hvalid, rfl, rfl⟩
    all_goals exact .inl ⟨by simp only [State.bufValid, hphase, Phase.hasCodewords], rfl, rfl⟩

theorem resultsWritten_fault {s : State} (hp : ResultsWritten s) : ResultsWritten { s with phase := .fault } := by
  refine hp.of_loads fun b hbits hrsin hvalid => ?_
  cases b
  case data | ecc | cw | matrix => cases hvalid
  all_goals exact .inl ⟨hvalid, rfl, rfl⟩

theorem preserved_resultsWritten : Preserved ParamsAgree ResultsWritten :=
  .of_coreKept resultsWritten_of_coreKept resultsWritten_of_cleared resultsWritten_of_effect fun _ => resultsWritten_fault

end Sys2Proof.Machine

namespace Sys2Proof.Machine

/-! ### The cells of MATRIX (10_state.md R54, 43_matrix.md R203, 44_mask.md R244) -/

/-- The cell codes a readable MATRIX may hold (10_state.md R54). -/
def LegalCode (code : Byte) : Prop :=
  code ∈ [dataCell false, dataCell true, funcCell false, funcCell true, cellReserved]

theorem legalCode_dataCell (dark : Bool) : LegalCode (dataCell dark) := by
  cases dark <;> simp [LegalCode]

theorem legalCode_funcCell (dark : Bool) : LegalCode (funcCell dark) := by
  cases dark <;> simp [LegalCode]

theorem legalCode_cellReserved : LegalCode cellReserved := by simp [LegalCode]

/-- A mask turns a data module into a data module and keeps every other code (44_mask.md R222). -/
theorem maskApply_legal {code : Byte} (h : LegalCode code) (k r c : Nat) :
    LegalCode (maskApply k r c code) ∧ (maskApply k r c code = cellReserved ↔ code = cellReserved) := by
  by_cases hdata : code = dataCell false ∨ code = dataCell true
  · obtain ⟨dark, rfl⟩ := dataCell_cases.mpr hdata
    rw [maskApply_dataCell]
    exact ⟨legalCode_dataCell _, iff_of_false (dataCell_ne_cellReserved _) (dataCell_ne_cellReserved _)⟩
  · obtain ⟨hlight, hdark⟩ := not_or.mp hdata
    rw [maskApply_of_not_data hlight hdark]
    exact ⟨h, Iff.rfl⟩

theorem cell_buildMatrix_legal {v r c : Nat} (h1 : 1 ≤ v) (h40 : v ≤ 40) (hr : r < sideOf v) (hc : c < sideOf v)
    (cw : List Byte) :
    LegalCode ((buildMatrix v (sideOf v) cw).cell r c) ∧
      ((buildMatrix v (sideOf v) cw).cell r c = cellReserved ↔ (r, c) ∈ infoCells v (sideOf v)) := by
  obtain ⟨-, hcells⟩ := builtMatrixIsComplete v cw h1 h40
  obtain ⟨-, hkept, hdata, hpattern, hreserved⟩ := hcells r c _ _ hr hc rfl rfl
  refine ⟨?_, hreserved⟩
  by_cases hunset : (functionMatrix v (sideOf v)).cell r c = cellUnset
  · obtain ⟨dark, hdark⟩ := dataCell_cases.mpr (hdata hunset)
    rw [hdark]
    exact legalCode_dataCell dark
  · rw [hkept hunset]
    obtain h | h | h | h := hpattern
    · exact absurd h hunset
    all_goals rw [h]
    · exact legalCode_cellReserved
    · exact legalCode_funcCell false
    · exact legalCode_funcCell true

/-- The final matrix of a matrix with legal cells whose reserved cells are the information cells (44_mask.md R244). -/
theorem Matrix.Square.cell_finalMatrix_legal {v side k r c : Nat} {m : Matrix} (h : m.Square side) (h1 : 1 ≤ v)
    (hside : side = sideOf v) (hr : r < side) (hc : c < side) (fw : BitVec 15)
    (hcell : LegalCode (m.cell r c) ∧ (m.cell r c = cellReserved ↔ (r, c) ∈ infoCells v side)) :
    LegalCode ((Machine.finalMatrix v side k fw m).cell r c) ∧
      (Machine.finalMatrix v side k fw m).cell r c ≠ cellReserved := by
  obtain ⟨hlegal, hreserved⟩ := hcell
  by_cases hinfo : (r, c) ∈ infoCells v side
  · obtain ⟨dark, hfunc⟩ := h.cell_finalMatrix_of_info (k := k) h1 hside fw hinfo
    rw [hfunc]
    exact ⟨legalCode_funcCell dark, funcCell_ne_cellReserved dark⟩
  · rw [h.cell_finalMatrix_of_not_info hr hc fw hinfo]
    obtain ⟨hmasked, hkept⟩ := maskApply_legal hlegal k r c
    exact ⟨hmasked, fun heq => hinfo (hreserved.mp (hkept.mp heq))⟩

theorem cellsLegal_of_coreKept {s t : State} (h : CoreKept s t) (hp : CellsLegal s) : CellsLegal t := by
  simp only [CellsLegal, State.matrixCell, h.phase, h.params, h.readByte (b := .matrix) (by decide) (by decide)]
  exact hp

theorem cellsLegal_of_not_hasMatrix {s : State} (h : s.phase.hasMatrix = false) : CellsLegal s :=
  fun hmatrix => absurd hmatrix (by rw [h]; decide)

/-- A load of a matrix with legal cells. -/
theorem cellsLegal_of_load {s t : State} {m : Matrix} (hm : m.Square s.params.side.toNat)
    (hb : t.bufs.get .matrix = Memory.load m.flatten (s.bufs.get .matrix)) (hparams : t.params = s.params)
    (hpower : t.powerOns = s.powerOns) (hresets : t.resets = s.resets)
    (h : ∀ r c, r < s.params.side.toNat → c < s.params.side.toNat → LegalCode (m.cell r c) ∧ (m.cell r c = cellReserved ↔
      t.phase ≠ .finalized ∧ (r, c) ∈ infoCells s.params.version.toNat s.params.side.toNat)) : CellsLegal t := by
  intro _ r c hr hc
  rw [hparams] at hr hc ⊢
  rw [(matrixCell_of_load hm hb hparams hpower hresets).1 r c hr hc]
  exact h r c hr hc

theorem cellsLegal_of_effect {i : Instr} {s u : State} (hagree : ParamsAgree s) (hp : CellsLegal s) (hu : Effect i s u) :
    CellsLegal u := by
  cases hu with
  | nop | gfMul | gfPow | gfExp | gfLog | rsGen | rsDiv => exact hp
  | qrBegin | qrAsm => exact cellsLegal_of_not_hasMatrix rfl
  | qrBuild hphase =>
    obtain ⟨v, e, h1, h40, he, hparams⟩ := hagree.legal (by rw [hphase]; decide)
    have hholds := paramsHold_paramsOf h1 h40 he
    refine cellsLegal_of_load (s := s) (square_buildMatrix _ _ _) rfl rfl rfl rfl fun r c hr hc => ?_
    rw [hparams, hholds.side] at hr hc
    rw [hparams, hholds.side, hholds.version]
    obtain ⟨hlegal, hreserved⟩ := cell_buildMatrix_legal h1 h40 hr hc (s.readBlock .cw (paramsOf v e).ncw.toNat)
    exact ⟨hlegal, hreserved.trans (and_iff_right (by simp)).symm⟩
  | qrEval hphase =>
    intro _ r c hr hc
    obtain ⟨hlegal, hreserved⟩ := hp (by rw [hphase]; rfl) r c hr hc
    rw [hphase] at hreserved
    exact ⟨hlegal, hreserved.trans (and_congr_left fun _ => by simp)⟩
  | qrFinal hphase =>
    obtain ⟨v, e, h1, h40, he, hparams⟩ := hagree.legal (by rw [hphase]; decide)
    have hholds := paramsHold_paramsOf h1 h40 he
    have hversion : s.params.version.toNat = v := by rw [hparams, hholds.version]
    have hside : s.params.side.toNat = sideOf s.params.version.toNat := by rw [hversion, hparams, hholds.side]
    refine cellsLegal_of_load (s := s) (square_loaded_finalMatrix s _) rfl rfl rfl rfl fun r c hr hc => ?_
    obtain ⟨hlegal, hreserved⟩ := hp (by rw [hphase]; rfl) r c hr hc
    rw [hphase, and_iff_right (by decide)] at hreserved
    rw [← cell_matrixRows hr hc] at hlegal hreserved
    obtain ⟨hfinal, hset⟩ := (square_matrixRows s).cell_finalMatrix_legal (k := s.scores.mask.toNat) (hversion ▸ h1) hside
      hr hc (formatWord s.params.eclevel.toNat s.scores.mask.toNat) ⟨hlegal, hreserved⟩
    exact ⟨hfinal, iff_of_false hset fun h => h.1 rfl⟩

theorem preserved_cellsLegal : Preserved ParamsAgree CellsLegal :=
  .of_coreKept cellsLegal_of_coreKept (fun h => cellsLegal_of_not_hasMatrix (by rw [h.phase]; rfl)) cellsLegal_of_effect
    fun _ _ => cellsLegal_of_not_hasMatrix rfl

/-! ### The result registers (44_mask.md R231 to R233, R240, R242) -/

theorem resultsAgree_of_coreKept {s t : State} (h : CoreKept s t) (hp : ResultsAgree s) : ResultsAgree t := by
  simp only [ResultsAgree, h.phase, h.params, h.scores, h.format, h.verinfo]
  exact hp

/-- Before an evaluation the result registers are 0. -/
theorem resultsAgree_of_zero {s : State} (hphase : s.phase.hasScores = false) (hscores : s.scores = Scores.zero)
    (hformat : s.format = 0) (hverinfo : s.verinfo = 0) : ResultsAgree s := by
  have hnot : s.phase ≠ .finalized := fun h => by rw [h] at hphase; cases hphase
  exact ⟨fun _ => hscores, fun h => absurd h (by rw [hphase]; decide), fun _ => ⟨hformat, hverinfo⟩, fun h => absurd h hnot⟩

/-- A change of phase that reaches no evaluation. -/
theorem ResultsAgree.of_unscored {s t : State} (hp : ResultsAgree s) (hs : s.phase.hasScores = false)
    (ht : t.phase.hasScores = false) (hscores : t.scores = s.scores) (hformat : t.format = s.format)
    (hverinfo : t.verinfo = s.verinfo) : ResultsAgree t := by
  have hnot : s.phase ≠ .finalized := fun h => by rw [h] at hs; cases hs
  obtain ⟨hzero, -, hwords, -⟩ := hp
  obtain ⟨hf, hv⟩ := hwords hnot
  exact resultsAgree_of_zero ht (hscores.trans (hzero hs)) (hformat.trans hf) (hverinfo.trans hv)

/-- The registers of an evaluation: the selected mask is the first of the least totals, and SELP adds up to its total. -/
theorem Evaluates.optimal {score : Nat → Score} {x : Scores} (h : Evaluates score x) :
    (∀ k : Fin 8, x.pen[x.mask.toNat] ≤ x.pen[k]) ∧
    (∀ k : Fin 8, k.val < x.mask.toNat → x.pen[x.mask.toNat] < x.pen[k]) ∧
    x.selp[0] + x.selp[1] + x.selp[2] + x.selp[3] = x.pen[x.mask.toNat] := by
  have hpen (k : Fin 8) : x.pen[k].toNat = (score k.val).total := h.pen k.val k.isLt
  have hsel := h.pen x.mask.toNat x.mask.isLt
  refine ⟨fun k => ?_, fun k hk => ?_, BitVec.eq_of_toNat_eq ?_⟩
  · rw [BitVec.le_def, hsel, hpen]
    exact h.le k.val k.isLt
  · rw [BitVec.lt_def, hsel, hpen]
    exact h.first k.val hk
  · have hfit := x.pen[x.mask.toNat].isLt
    rw [hsel] at hfit ⊢
    unfold Score.total at hfit ⊢
    simp only [BitVec.toNat_add, h.p1, h.p2, h.p3, h.p4]
    omega

theorem resultsAgree_of_effect {i : Instr} {s u : State} (hagree : ParamsAgree s) (hp : ResultsAgree s)
    (hu : Effect i s u) : ResultsAgree u := by
  cases hu with
  | nop | gfMul | gfPow | gfExp | gfLog | rsGen | rsDiv => exact hp
  | qrBegin => exact resultsAgree_of_zero rfl rfl rfl rfl
  | qrAsm hphase | qrBuild hphase => exact hp.of_unscored (by rw [hphase]; rfl) rfl rfl rfl rfl
  | qrEval hphase =>
    obtain ⟨v, e, h1, h40, he, hparams⟩ := hagree.legal (by rw [hphase]; decide)
    have hside : s.params.side.toNat ≤ 177 := by
      rw [hparams, (paramsHold_paramsOf h1 h40 he).side]
      exact sideOf_le h40
    obtain ⟨-, -, hwords, -⟩ := hp
    exact ⟨(fun h => nomatch h), fun _ => (evaluates_laneScores hside (square_matrixRows s)).optimal,
      fun _ => hwords (by rw [hphase]; decide), (fun h => nomatch h)⟩
  | qrFinal hphase =>
    obtain ⟨-, hoptimal, -, -⟩ := hp
    exact ⟨(fun h => nomatch h), fun _ => hoptimal (by rw [hphase]; rfl), fun h => absurd rfl h, fun _ => ⟨rfl, rfl⟩⟩

theorem preserved_resultsAgree : Preserved ParamsAgree ResultsAgree :=
  .of_coreKept resultsAgree_of_coreKept
    (fun h => resultsAgree_of_zero (by rw [h.phase]; rfl) h.scores h.format h.verinfo) resultsAgree_of_effect
    fun hphase hp => hp.of_unscored (by rw [hphase]; rfl) rfl rfl rfl rfl

/-! ### No step stops (log entry 8) -/

/-- Under legal parameters every command stays within its buffers. -/
theorem not_overruns {i : Instr} {s : State} {b : Buf} (hagree : ParamsAgree s) : ¬ Overruns i s b := by
  have hlegal (hp : s.phase ≠ .unsegmented) := hagree.legal hp
  have hmatrix (hp : s.phase ≠ .unsegmented) : overrun? (matrixReach s) = none := by
    obtain ⟨v, e, h1, h40, he, hparams⟩ := hlegal hp
    refine overrun?_matrixReach ?_
    rw [hparams, (paramsHold_paramsOf h1 h40 he).side]
    exact sideOf_le h40
  intro h
  cases h with
  | qrAsm hphase hlen hreach =>
    obtain ⟨v, e, h1, h40, he, hparams⟩ := hlegal (by rw [hphase]; decide)
    rw [hparams, (paramsHold_paramsOf h1 h40 he).ndata] at hlen
    exact absurd (hreach.symm.trans (overrun?_asmReach h1 h40 he hparams hlen)) (by simp)
  | qrBuild hphase _ hreach =>
    obtain ⟨v, e, h1, h40, he, hparams⟩ := hlegal (by rw [hphase]; decide)
    exact absurd (hreach.symm.trans (overrun?_buildReach h1 h40 he hparams)) (by simp)
  | qrEval hphase hreach | qrFinal hphase hreach =>
    exact absurd (hreach.symm.trans (hmatrix (by rw [hphase]; decide))) (by simp)

theorem exists_exec {s : State} (hagree : ParamsAgree s) (i : Instr) : ∃ t, exec i s = .next t := by
  obtain ⟨u, hu⟩ | ⟨e, he⟩ | ⟨b, hb⟩ := effect_or_fails_or_overruns i s
  · exact ⟨_, exec_of_effect hu⟩
  · exact ⟨_, exec_of_fails he⟩
  · exact absurd hb (not_overruns hagree)

theorem exists_coreTurn {s : State} (hagree : ParamsAgree s) : ∃ t, coreTurn s = .next t := by
  cases hl : s.latch with
  | none => exact ⟨s, coreTurn_of_idle hl⟩
  | some w =>
    rw [coreTurn_of_pending hl]
    cases hd : decode w with
    | error e => exact ⟨_, complete_of_illegal hd s⟩
    | ok i =>
      rw [complete_of_decode hd]
      exact exists_exec hagree i

/-- The extents of a state of the invariant lie within the capacities (10_state.md R51, R52). -/
theorem bufExtent_le_capacity {s : State} (hagree : ParamsAgree s) (hcount : s.eccount.toNat ≤ maxEc) (b : Buf) :
    s.bufExtent b ≤ b.capacity := by
  have hparams : s.params.ndata.toNat ≤ 2956 ∧ s.params.nb.toNat * s.params.ecb.toNat ≤ 2430 ∧
      s.params.ncw.toNat ≤ 3706 ∧ s.params.side.toNat * s.params.side.toNat ≤ 31329 := by
    obtain ⟨-, hzero⟩ | ⟨-, v, e, h1, h40, he, hparams⟩ := hagree
    · rw [hzero]
      decide
    · have hholds := paramsHold_paramsOf h1 h40 he
      rw [hparams, hholds.ndata, hholds.nb, hholds.ecb, hholds.ncw, hholds.side]
      exact ⟨ndataOf_le v h40 e he, nbOf_mul_ecbOf_le v h40 h1 e he, ncwOf_le v h40, sideOf_mul_sideOf_le h40⟩
  obtain ⟨hdata, hecc, hcw, hmatrix⟩ := hparams
  cases b with
  | bits | rsin => exact le_rfl
  | data => exact hdata
  | ecc => exact hecc
  | cw => exact hcw
  | matrix => exact hmatrix
  | rsout => exact hcount
  | gen => exact Nat.succ_le_succ hcount

/-- A host transaction stops only at the port. -/
theorem exists_access {s : State} (hext : ∀ b : Buf, s.bufExtent b ≤ b.capacity) (a : Access) :
    ∃ t, access a s = .next t := by
  unfold access
  split
  · exact ⟨_, rfl⟩
  · split
    · exact ⟨_, rfl⟩
    · split
      · exact ⟨_, rfl⟩
      · split
        · exact ⟨_, rfl⟩
        · split
          · obtain ⟨t, ht, -⟩ := exists_accessPort (kind := a.kind) hext a.data
            exact ⟨t, ht⟩
          · split <;> exact ⟨_, rfl⟩

theorem stepsOn_of_inv {s : State} (h : Inv s) : StepsOn s := by
  obtain hc | hr | ⟨a, rest, -, hs⟩ := turn_cases s
  · rw [StepsOn, step_of_coreNext hc]
    exact exists_coreTurn h.params
  · obtain ⟨rest, hreset | hreset⟩ := step_of_resetNext hr
    · exact ⟨_, hreset⟩
    · exact ⟨_, hreset⟩
  · rw [StepsOn, step_of_agenda_cons hs]
    exact exists_access (s := { s with agenda := rest }) (bufExtent_le_capacity h.params h.generator.1) a

/-! ### The invariant of Safety.lean -/

theorem inv_step {s t : State} (h : Inv s) (hstep : step s = .next t) : Inv t where
  buffers := preserved_buffersCanonical.step trivial h.buffers hstep
  latch := preserved_latchAgrees.step h.params h.latch hstep
  codes := preserved_codesDefined.step h.params h.codes hstep
  params := preserved_paramsAgree.step trivial h.params hstep
  generator := preserved_generatorAgrees.step h.params h.generator hstep
  written := preserved_resultsWritten.step h.params h.written hstep
  cells := preserved_cellsLegal.step h.params h.cells hstep
  results := preserved_resultsAgree.step h.params h.results hstep

/-- Settles O56: a reset clears what the commands own. -/
theorem resetMeetsTheInvariant : Obligations.ResetMeetsTheInvariant := by
  unfold Obligations.ResetMeetsTheInvariant
  exact {
    buffers := reset_buffers_wf
    latch := fun _ h => nomatch h
    codes := codesDefined_zero
    params := .inl ⟨rfl, rfl⟩
    generator := generatorAgrees_of_cleared cleared_reset
    written := resultsWritten_of_cleared cleared_reset
    cells := cellsLegal_of_not_hasMatrix rfl
    results := resultsAgree_of_zero rfl rfl rfl rfl }

/-- Settles O59: each part of the invariant passes every kind of step, and its extents and parameters keep commands and
the port within the buffers. -/
theorem stepKeepsTheInvariant : Obligations.StepKeepsTheInvariant := by
  unfold Obligations.StepKeepsTheInvariant
  intro s h
  obtain ⟨t, hstep⟩ := stepsOn_of_inv h
  exact ⟨t, hstep, inv_step h hstep⟩

end Sys2Proof.Machine
